-- ==== Sys2Proof/Word.lean ====
section
/-! DEFINITION. The word types of the block: the byte (R10), the 32-bit checksum word (R12), the 11-bit request word
(R55) and the packet (R19). -/

namespace Sys2Proof

/-- A byte: 8 bits (R10). -/
abbrev Byte := BitVec 8

/-- A word32 (R12): the width of both checksum accumulators. -/
abbrev Word32 := BitVec 32

/-- The request word `REQ[10:0]` (R55): `op = REQ[10:8]`, `data = REQ[7:0]`. -/
abbrev Req := BitVec 11

/-- A packet: a sequence of zero or more bytes, in arrival order (R19). -/
abbrev Packet := List Byte

end Sys2Proof
end

