-- ==== Sys2Proof/Config.lean ====
section
/-! DEFINITION. What is fixed for one block instance: the reserved byte values of the wire format (R6, R42) and the
session parameters `CKEN` (R7) and `ESC_END_POLICY` (R8). `BUF_CAP` and `Q_CAP` (R9) have no constant: both sequences
are lists with no length limit (notes/assumptions/14.md). -/

namespace Sys2Proof

/-- `END = 0xC0`, the frame delimiter (R6, R42). -/
abbrev END : Byte := 0xC0#8

/-- `ESC = 0xDB`, the escape marker (R6, R42). -/
abbrev ESC : Byte := 0xDB#8

/-- `ESC_END = 0xDC`, second byte of the pair that stands for `0xC0` (R6, R42). -/
abbrev ESC_END : Byte := 0xDC#8

/-- `ESC_ESC = 0xDD`, second byte of the pair that stands for `0xDB` (R6, R42). -/
abbrev ESC_ESC : Byte := 0xDD#8

/-- `ESC_END_POLICY` (R8): what the decoder does with `END` while an escape is pending. -/
inductive EscEndPolicy where
  /-- Set `RX_ACK`, recognise no boundary (R76): the value of this hardware. -/
  | flagOnly
  /-- Discard the frame in progress (R77). -/
  | discard
  deriving DecidableEq, Repr

/-- The parameters of one session (R7, R8, R20): supplied with `RESET`, constant until the next one. -/
structure Params where
  /-- `CKEN`: checksum mode, for the encoder and the decoder of the instance alike (R7). -/
  cken : Bool
  /-- `ESC_END_POLICY` (R8). -/
  escEndPolicy : EscEndPolicy
  deriving DecidableEq, Repr

/-- The parameters that `State.reset` holds. `FLAG_ONLY` is the value this hardware takes (R8); `CKEN` is OPEN in the
spec (R7), and `CKEN = 1` is a DESIGN CHOICE (unsafe, notes/assumptions/1.md) on which no statement rests: every
statement quantifies over the parameters. -/
def Config.resetParams : Params := { cken := true, escEndPolicy := .flagOnly }

end Sys2Proof
end

