-- ==== Sys2Proof/Syntax.lean ====
section
/-! DEFINITION. The instructions: one constructor per row of spec/opcode_table.json (R58), the groups of the table, the
channel an operation belongs to (R11), and the pseudo-operations SEND, FRAME and FEED (R57, R65, R66). -/

namespace Sys2Proof

/-- An instruction: one row of spec/opcode_table.json, with its byte operand where the row leaves it open. The first
eight are the rows of format `OP`, the next three refine `TXB` (format `TXB_CASE`), the last eleven refine `RXB` (format
`RXB_CASE`). A row stands for its request word; where several rows share a word, configuration and state tell them
apart (R58). -/
inductive Instr where
  /-- `TXB b` (R59). -/
  | txb (b : Byte)
  /-- `TXEND`, the row for `CKEN = 1` (R63). -/
  | txendCk1
  /-- `TXEND`, the row for `CKEN = 0` (R64). -/
  | txendCk0
  /-- `RXB b` (R71). -/
  | rxb (b : Byte)
  /-- `DEQ`, the row for a non-empty queue (R93). -/
  | deqHead
  /-- `DEQ`, the row for an empty queue (R94). -/
  | deqEmpty
  /-- `QCNT` (R95). -/
  | qcnt
  /-- `RESET` (R111). -/
  | reset
  /-- `TXB 0xC0` (R60). -/
  | txbEnd
  /-- `TXB 0xDB` (R61). -/
  | txbEsc
  /-- `TXB b`, `b` not `0xC0` and not `0xDB` (R62). -/
  | txbLit (b : Byte)
  /-- `RXB 0xDC`, escape pending (R74). -/
  | rxbEEscEnd
  /-- `RXB 0xDD`, escape pending (R75). -/
  | rxbEEscEsc
  /-- `RXB 0xC0`, escape pending, `FLAG_ONLY` (R76). -/
  | rxbEEndFlag
  /-- `RXB 0xC0`, escape pending, `DISCARD` (R77). -/
  | rxbEEndDiscard
  /-- `RXB b`, escape pending, `b` none of `0xDC`, `0xDD`, `0xC0` (R78). -/
  | rxbEOther (b : Byte)
  /-- `RXB 0xDB`, no escape pending (R79). -/
  | rxbNEsc
  /-- `RXB 0xC0`, no escape pending, `CKEN = 1`, fewer than four bytes buffered (R81). -/
  | rxbNEndShort
  /-- `RXB 0xC0`, no escape pending, `CKEN = 1`, four or more bytes, checksum test fails (R82). -/
  | rxbNEndMismatch
  /-- `RXB 0xC0`, no escape pending, `CKEN = 1`, four or more bytes, checksum test passes (R83). -/
  | rxbNEndMatch
  /-- `RXB 0xC0`, no escape pending, `CKEN = 0` (R84). -/
  | rxbNEndNock
  /-- `RXB b`, no escape pending, `b` neither `0xDB` nor `0xC0` (R86). -/
  | rxbNData (b : Byte)
  deriving DecidableEq, Repr

/-- The three groups of rows, the table's `format` (R58). -/
inductive Group where
  | op
  | txbCase
  | rxbCase
  deriving DecidableEq, Repr

/-- The channels operations are presented on (R11); `RESET` belongs to all of them. -/
inductive Channel where
  | tx
  | rx
  | q
  | all
  deriving DecidableEq, Repr

namespace Instr

/-- The `format` of an instruction's row. -/
def group : Instr → Group
  | txb _ => .op
  | txendCk1 => .op
  | txendCk0 => .op
  | rxb _ => .op
  | deqHead => .op
  | deqEmpty => .op
  | qcnt => .op
  | reset => .op
  | txbEnd => .txbCase
  | txbEsc => .txbCase
  | txbLit _ => .txbCase
  | rxbEEscEnd => .rxbCase
  | rxbEEscEsc => .rxbCase
  | rxbEEndFlag => .rxbCase
  | rxbEEndDiscard => .rxbCase
  | rxbEOther _ => .rxbCase
  | rxbNEsc => .rxbCase
  | rxbNEndShort => .rxbCase
  | rxbNEndMismatch => .rxbCase
  | rxbNEndMatch => .rxbCase
  | rxbNEndNock => .rxbCase
  | rxbNData _ => .rxbCase

/-- The channel an instruction is presented on (R11, R109). -/
def channel : Instr → Channel
  | txb _ => .tx
  | txendCk1 => .tx
  | txendCk0 => .tx
  | rxb _ => .rx
  | deqHead => .q
  | deqEmpty => .q
  | qcnt => .q
  | reset => .all
  | txbEnd => .tx
  | txbEsc => .tx
  | txbLit _ => .tx
  | rxbEEscEnd => .rx
  | rxbEEscEsc => .rx
  | rxbEEndFlag => .rx
  | rxbEEndDiscard => .rx
  | rxbEOther _ => .rx
  | rxbNEsc => .rx
  | rxbNEndShort => .rx
  | rxbNEndMismatch => .rx
  | rxbNEndMatch => .rx
  | rxbNEndNock => .rx
  | rxbNData _ => .rx

end Instr

/-- `SEND [b0 ... bn]` (R57, R65): one `TXB` per byte, in order. -/
def send (P : List Byte) : List Instr := P.map Instr.txb

/-- `FRAME [b0 ... bn]` (R57, R66): `SEND`, then `TXEND`. The two `TXEND` rows are one request, told apart by `CKEN`. -/
def frame (P : List Byte) : List Instr := send P ++ [.txendCk1]

/-- `FEED [w0 ... wn]` (R57): one `RXB` per wire byte, in order. -/
def feed (W : List Byte) : List Instr := W.map Instr.rxb

end Sys2Proof
end

