-- ==== Sys2Proof/WellFormed.lean ====
section
/-! DEFINITION. Which instructions are well formed: a default row's operand is none of the values that the rows before
it in its group take (R58, R62, R78, R86). -/

namespace Sys2Proof

/-- The check on an instruction's operand. A row that fixes its operand, and a dispatch row, has nothing to check. -/
def Instr.wf : Instr → Bool
  | .txb _ => true
  | .txendCk1 => true
  | .txendCk0 => true
  | .rxb _ => true
  | .deqHead => true
  | .deqEmpty => true
  | .qcnt => true
  | .reset => true
  | .txbEnd => true
  | .txbEsc => true
  | .txbLit b => b != END && b != ESC
  | .rxbEEscEnd => true
  | .rxbEEscEsc => true
  | .rxbEEndFlag => true
  | .rxbEEndDiscard => true
  | .rxbEOther b => b != ESC_END && b != ESC_ESC && b != END
  | .rxbNEsc => true
  | .rxbNEndShort => true
  | .rxbNEndMismatch => true
  | .rxbNEndMatch => true
  | .rxbNEndNock => true
  | .rxbNData b => b != ESC && b != END

end Sys2Proof
end

