-- ==== Sys2Proof/Decode.lean ====
section
/-! DEFINITION. The decoder, total on every request word, and the encoder. The rows are those of spec/opcode_table.json
and are read as R58 says: within a group, in increasing priority, the first whose mask and pattern fit the word and
whose conditions hold. The operation numbers are the spec's own (92_eei_decisions.md D2). -/

namespace Sys2Proof

/-- What a row's conditions may ask of the configuration and the state (the `fields` and `source_fields` of the table):
`CKEN`, `ESC_END_POLICY`, `RX_ESC`, whether `PQ` is empty, whether `len(RX_BUF) < 4`, and the outcome of the checksum
test of R82. `Machine.State.ctx` computes it from a state. -/
structure Ctx where
  cken : Bool
  policy : EscEndPolicy
  rxEsc : Bool
  pqEmpty : Bool
  bufShort : Bool
  ckPass : Bool
  deriving DecidableEq, Repr

/-- Why a word names no instruction. -/
inductive Reject where
  /-- `op` is a reserved operation number, 0 or 6 (R56). -/
  | reservedOperation (op : BitVec 3)
  /-- A number with a bit above bit 10 is no request word (R55: `REQ[10:0]`). -/
  | notARequestWord
  deriving DecidableEq, Repr

/-- One row of the opcode table: `(REQ & mask) == pattern`, the `priority`, the conditions, and the instruction the row
names for a word whose `data` field is the argument. -/
structure Row where
  mnemonic : String
  mask : Req
  pattern : Req
  priority : Nat
  cond : Ctx → Bool
  instr : Byte → Instr

/-- `op = REQ[10:8]` (R55). -/
def reqOp (w : Req) : BitVec 3 := w.extractLsb' 8 3

/-- `data = REQ[7:0]` (R55). -/
def reqData (w : Req) : Byte := w.extractLsb' 0 8

/-- The rows of format `OP`: `REQ[10:8]` alone, with the configuration or state condition where an operation has one row
per rule (R58). -/
def opRows : List Row := [
  { mnemonic := "TXB", mask := 0x700, pattern := 0x100, priority := 1, cond := fun _ => true, instr := .txb },
  { mnemonic := "TXEND.CK1", mask := 0x700, pattern := 0x200, priority := 1, cond := fun c => c.cken,
    instr := fun _ => .txendCk1 },
  { mnemonic := "TXEND.CK0", mask := 0x700, pattern := 0x200, priority := 1, cond := fun c => !c.cken,
    instr := fun _ => .txendCk0 },
  { mnemonic := "RXB", mask := 0x700, pattern := 0x300, priority := 1, cond := fun _ => true, instr := .rxb },
  { mnemonic := "DEQ.HEAD", mask := 0x700, pattern := 0x400, priority := 1, cond := fun c => !c.pqEmpty,
    instr := fun _ => .deqHead },
  { mnemonic := "DEQ.EMPTY", mask := 0x700, pattern := 0x400, priority := 1, cond := fun c => c.pqEmpty,
    instr := fun _ => .deqEmpty },
  { mnemonic := "QCNT", mask := 0x700, pattern := 0x500, priority := 1, cond := fun _ => true,
    instr := fun _ => .qcnt },
  { mnemonic := "RESET", mask := 0x700, pattern := 0x700, priority := 1, cond := fun _ => true,
    instr := fun _ => .reset }]

/-- The rows of format `TXB_CASE`: `TXB` by the value of its operand (R58, R60, R61, R62). -/
def txbRows : List Row := [
  { mnemonic := "TXB.END", mask := 0x7FF, pattern := 0x1C0, priority := 1, cond := fun _ => true,
    instr := fun _ => .txbEnd },
  { mnemonic := "TXB.ESC", mask := 0x7FF, pattern := 0x1DB, priority := 1, cond := fun _ => true,
    instr := fun _ => .txbEsc },
  { mnemonic := "TXB.LIT", mask := 0x700, pattern := 0x100, priority := 2, cond := fun _ => true, instr := .txbLit }]

/-- The rows of format `RXB_CASE`: `RXB` by its operand, `RX_ESC`, and at a frame boundary `CKEN`, the length test and
the checksum test (R58, R71, R80). -/
def rxbRows : List Row := [
  { mnemonic := "RXB.E.ESC_END", mask := 0x7FF, pattern := 0x3DC, priority := 1, cond := fun c => c.rxEsc,
    instr := fun _ => .rxbEEscEnd },
  { mnemonic := "RXB.E.ESC_ESC", mask := 0x7FF, pattern := 0x3DD, priority := 1, cond := fun c => c.rxEsc,
    instr := fun _ => .rxbEEscEsc },
  { mnemonic := "RXB.E.END.FLAG", mask := 0x7FF, pattern := 0x3C0, priority := 1,
    cond := fun c => c.rxEsc && c.policy == .flagOnly, instr := fun _ => .rxbEEndFlag },
  { mnemonic := "RXB.E.END.DISCARD", mask := 0x7FF, pattern := 0x3C0, priority := 1,
    cond := fun c => c.rxEsc && c.policy == .discard, instr := fun _ => .rxbEEndDiscard },
  { mnemonic := "RXB.E.OTHER", mask := 0x700, pattern := 0x300, priority := 2, cond := fun c => c.rxEsc,
    instr := .rxbEOther },
  { mnemonic := "RXB.N.ESC", mask := 0x7FF, pattern := 0x3DB, priority := 3, cond := fun c => !c.rxEsc,
    instr := fun _ => .rxbNEsc },
  { mnemonic := "RXB.N.END.SHORT", mask := 0x7FF, pattern := 0x3C0, priority := 3,
    cond := fun c => !c.rxEsc && c.cken && c.bufShort, instr := fun _ => .rxbNEndShort },
  { mnemonic := "RXB.N.END.MISMATCH", mask := 0x7FF, pattern := 0x3C0, priority := 3,
    cond := fun c => !c.rxEsc && c.cken && !c.bufShort && !c.ckPass, instr := fun _ => .rxbNEndMismatch },
  { mnemonic := "RXB.N.END.MATCH", mask := 0x7FF, pattern := 0x3C0, priority := 3,
    cond := fun c => !c.rxEsc && c.cken && !c.bufShort && c.ckPass, instr := fun _ => .rxbNEndMatch },
  { mnemonic := "RXB.N.END.NOCK", mask := 0x7FF, pattern := 0x3C0, priority := 3,
    cond := fun c => !c.rxEsc && !c.cken, instr := fun _ => .rxbNEndNock },
  { mnemonic := "RXB.N.DATA", mask := 0x700, pattern := 0x300, priority := 4, cond := fun c => !c.rxEsc,
    instr := .rxbNData }]

/-- The rows of a group, in increasing priority. -/
def groupRows : Group → List Row
  | .op => opRows
  | .txbCase => txbRows
  | .rxbCase => rxbRows

/-- Does the row fit the word, and do its conditions hold? -/
def rowFits (c : Ctx) (w : Req) (r : Row) : Bool := (w &&& r.mask) == r.pattern && r.cond c

/-- The instruction one group gives a word (R58): its first row, in increasing priority, that fits. -/
def decodeInGroup (g : Group) (c : Ctx) (w : Req) : Option Instr :=
  ((groupRows g).find? (rowFits c w)).map fun r => r.instr (reqData w)

/-- The decoder (R58): the `OP` row, then for `TXB` and `RXB` the case row that refines it. A word that fits no `OP` row
is reserved and refused (R56). -/
def decode (c : Ctx) (w : Req) : Except Reject Instr :=
  match decodeInGroup .op c w with
  | none => .error (.reservedOperation (reqOp w))
  | some (.txb b) => .ok ((decodeInGroup .txbCase c w).getD (.txb b))
  | some (.rxb b) => .ok ((decodeInGroup .rxbCase c w).getD (.rxb b))
  | some i => .ok i

/-- The decoder on a number: a request word has 11 bits (R55; DESIGN CHOICE, notes/assumptions/7.md). -/
def decodeNat (c : Ctx) (w : Nat) : Except Reject Instr :=
  if w < 2 ^ 11 then decode c (BitVec.ofNat 11 w) else .error .notARequestWord

/-- The configuration and state a word is decoded in right after reset: `Config.resetParams`, no escape pending, both
sequences empty (no row asks for the checksum test of a short buffer). `State.reset_ctx` (Laws/Flags.lean) shows that it
is the context of `State.reset`. -/
def ctxAfterReset : Ctx :=
  { cken := Config.resetParams.cken, policy := Config.resetParams.escEndPolicy, rxEsc := false, pqEmpty := true,
    bufShort := true, ckPass := true }

/-- The instruction the decoder reads, right after reset, from the request word whose bits are `w`. A row that shares
its word with others and is not the one selected there is not given by it (notes/assumptions/8.md). -/
def decodeTableWord (_nbits w : Nat) : Option Instr :=
  match decodeNat ctxAfterReset w with
  | .ok i => some i
  | .error _ => none

namespace Instr

/-- The operation number of an instruction's request word (R55). -/
def opNumber : Instr → BitVec 3
  | txb _ => 1
  | txendCk1 => 2
  | txendCk0 => 2
  | rxb _ => 3
  | deqHead => 4
  | deqEmpty => 4
  | qcnt => 5
  | reset => 7
  | txbEnd => 1
  | txbEsc => 1
  | txbLit _ => 1
  | rxbEEscEnd => 3
  | rxbEEscEsc => 3
  | rxbEEndFlag => 3
  | rxbEEndDiscard => 3
  | rxbEOther _ => 3
  | rxbNEsc => 3
  | rxbNEndShort => 3
  | rxbNEndMismatch => 3
  | rxbNEndMatch => 3
  | rxbNEndNock => 3
  | rxbNData _ => 3

/-- The `data` field of an instruction's request word: the byte operand of `TXB` and `RXB` (R55), and zero for the four
operations that ignore it (DESIGN CHOICE, notes/assumptions/9.md). -/
def operand : Instr → Byte
  | txb b => b
  | txendCk1 => 0
  | txendCk0 => 0
  | rxb b => b
  | deqHead => 0
  | deqEmpty => 0
  | qcnt => 0
  | reset => 0
  | txbEnd => END
  | txbEsc => ESC
  | txbLit b => b
  | rxbEEscEnd => ESC_END
  | rxbEEscEsc => ESC_ESC
  | rxbEEndFlag => END
  | rxbEEndDiscard => END
  | rxbEOther b => b
  | rxbNEsc => ESC
  | rxbNEndShort => END
  | rxbNEndMismatch => END
  | rxbNEndMatch => END
  | rxbNEndNock => END
  | rxbNData b => b

/-- The `OP` row an instruction refines, itself where it is one (R58). -/
def dispatchRow : Instr → Instr
  | txb b => txb b
  | txendCk1 => txendCk1
  | txendCk0 => txendCk0
  | rxb b => rxb b
  | deqHead => deqHead
  | deqEmpty => deqEmpty
  | qcnt => qcnt
  | reset => reset
  | txbEnd => txb END
  | txbEsc => txb ESC
  | txbLit b => txb b
  | rxbEEscEnd => rxb ESC_END
  | rxbEEscEsc => rxb ESC_ESC
  | rxbEEndFlag => rxb END
  | rxbEEndDiscard => rxb END
  | rxbEOther b => rxb b
  | rxbNEsc => rxb ESC
  | rxbNEndShort => rxb END
  | rxbNEndMismatch => rxb END
  | rxbNEndMatch => rxb END
  | rxbNEndNock => rxb END
  | rxbNData b => rxb b

/-- The conditions of an instruction's row on configuration and state (the columns of the transition table of
41_rx_decoder.md section 4 for the `RXB` rows; R63, R64, R93, R94 for the others). -/
def selected (c : Ctx) : Instr → Bool
  | txb _ => true
  | txendCk1 => c.cken
  | txendCk0 => !c.cken
  | rxb _ => true
  | deqHead => !c.pqEmpty
  | deqEmpty => c.pqEmpty
  | qcnt => true
  | reset => true
  | txbEnd => true
  | txbEsc => true
  | txbLit _ => true
  | rxbEEscEnd => c.rxEsc
  | rxbEEscEsc => c.rxEsc
  | rxbEEndFlag => c.rxEsc && c.policy == .flagOnly
  | rxbEEndDiscard => c.rxEsc && c.policy == .discard
  | rxbEOther _ => c.rxEsc
  | rxbNEsc => !c.rxEsc
  | rxbNEndShort => !c.rxEsc && c.cken && c.bufShort
  | rxbNEndMismatch => !c.rxEsc && c.cken && !c.bufShort && !c.ckPass
  | rxbNEndMatch => !c.rxEsc && c.cken && !c.bufShort && c.ckPass
  | rxbNEndNock => !c.rxEsc && !c.cken
  | rxbNData _ => !c.rxEsc

end Instr

/-- The encoder (R55): the operation number above the data field. -/
def encode (i : Instr) : Req := (i.opNumber ++ i.operand : BitVec (3 + 8))

end Sys2Proof
end

