-- ==== Sys2Proof/Machine/State.lean ====
section
/-! DEFINITION. The state: the six elements of one block instance (R13), the session parameters it was given (R7, R8,
R20), the observation traces (R21) and the environment's side of the interface (R11, R34, R109, R111). Plain data. -/

namespace Sys2Proof.Machine

/-- Why a frame is discarded (R99). -/
inductive DropCause where
  /-- `TRUNCATED_TRAILER` (R81). -/
  | truncatedTrailer
  /-- `CHECKSUM_MISMATCH` (R82). -/
  | checksumMismatch
  /-- `BAD_ESCAPE` (R77, R78). -/
  | badEscape
  deriving DecidableEq, Repr

/-- An entry of the trace `EVT` (R21). -/
inductive Event where
  /-- `PKT_EVT`, the packet-arrival event (R104). -/
  | pktEvt
  /-- `RX_DROP(c)`, the optional diagnostic of a discard (R105; notes/assumptions/10.md). -/
  | rxDrop (c : DropCause)
  deriving DecidableEq, Repr

/-- What a `DEQ` or `QCNT` step returns (R93, R94, R95). -/
inductive Result where
  /-- `DEQ`: the packet that was the head. -/
  | packet (p : Packet)
  /-- `DEQ` on an empty queue: `EMPTY`, distinct from every packet, the zero-length one included (R94). -/
  | empty
  /-- `QCNT`: the number of packets in `PQ`, with no upper bound (R95). -/
  | count (n : Nat)
  deriving DecidableEq, Repr

/-- The machine. -/
structure State where
  /-- `TX_ACC`, the encoder's checksum accumulator (R14). -/
  txAcc : Word32
  /-- `RX_BUF`, the decoder's in-progress buffer, index 0 the first logical byte of the frame (R15). -/
  rxBuf : List Byte
  /-- `RX_ESC`, escape pending (R16). -/
  rxEsc : Bool
  /-- `RX_ACC`, the decoder's checksum accumulator (R17). -/
  rxAcc : Word32
  /-- `RX_ACK`, "pending acknowledgment", which nothing reads (R18). -/
  rxAck : Bool
  /-- `PQ`, the Packet Queue, index 0 the head (R19). -/
  pq : List Packet
  /-- `CKEN` and `ESC_END_POLICY` of the running session: configuration, not an element of the block (R7, R8, R20). -/
  params : Params
  /-- `TXW`, the wire bytes emitted so far (R21): a trace, never read by the block. -/
  txw : List Byte
  /-- `EVT`, the events emitted so far (R21): a trace, never read by the block. -/
  evt : List Event
  /-- The results returned so far by `DEQ` and `QCNT` (R21: outputs of those steps): a trace, never read by the block
  (DESIGN CHOICE, notes/assumptions/4.md). -/
  results : List Result
  /-- The request words the environment presents, in their total order, the next one first (R11, R34, R109;
  notes/assumptions/2.md). -/
  pending : List Req
  /-- The parameter values the environment supplies with the `RESET`s to come, the next one first (R111;
  notes/assumptions/3.md). -/
  supplies : List Params
  deriving DecidableEq, Repr

/-- The reasons a machine stops with a fault. There are none: no operation of the block raises an exception, traps,
faults, halts or returns an error (R98), so no meaning can answer a fault. -/
inductive Fault : Type
  deriving DecidableEq, Repr

/-- The reasons a step is refused. -/
inductive Refusal where
  /-- An instruction that has no meaning in this model; no arm of `exec` answers it (safe). -/
  | notModelled (mnemonic : String)
  /-- Raised by `step` on a request word whose operation number is reserved, 0 or 6 (R56): it selects no operation and
  is not a step of the block (safe: the machine stops). -/
  | reservedRequest (op : BitVec 3)
  deriving DecidableEq, Repr

/-- The state after `RESET` of an instance given the parameters `p` (R27): every element of the block at the reset value
of the table under R13, the traces empty, nothing presented. -/
def State.resetWith (p : Params) : State :=
  { txAcc := 0, rxBuf := [], rxEsc := false, rxAcc := 0, rxAck := false, pq := [], params := p, txw := [], evt := [],
    results := [], pending := [], supplies := [] }

/-- The machine right after reset, which is also its power-on state (R27; notes/assumptions/13.md), for the parameters `Config.resetParams`. -/
def State.reset : State := State.resetWith Config.resetParams

end Sys2Proof.Machine
end

