-- ==== Sys2Proof/Machine/Operands.lean ====
section
/-! DEFINITION. The operand forms and the arithmetic on them: checksum contribution and checksum (R45, R46), the two
wrapping operations (R47), trailer assembly (R48), escape substitution (R43), the wire form of a payload (R49, R50) and
the split of a buffer at its last four bytes (R82, R83). -/

namespace Sys2Proof.Machine

/-- `add32` (R47): addition modulo 2^32. -/
def add32 (a b : Word32) : Word32 := a + b

/-- `sub32` (R47): subtraction modulo 2^32. -/
def sub32 (a b : Word32) : Word32 := a - b

/-- `zext_32` (R12): a byte as a word32. -/
def zext32 (b : Byte) : Word32 := b.setWidth 32

/-- `contrib(b) = b + 1` (R45), as a word32. -/
def contrib (b : Byte) : Word32 := add32 (zext32 b) 1

/-- The sum over `S` of `S[i] + 1`, an integer (R46). -/
def contribSum (S : List Byte) : Nat := (S.map fun b => b.toNat + 1).sum

/-- `cks(S)` (R46): that sum modulo 2^32. -/
def cks (S : List Byte) : Word32 := BitVec.ofNat 32 (contribSum S)

/-- `le32(v)` (R48): the four bytes of `v`, least significant first. -/
def le32 (v : Word32) : List Byte := [v.extractLsb' 0 8, v.extractLsb' 8 8, v.extractLsb' 16 8, v.extractLsb' 24 8]

/-- `unle32` (R48): the word32 whose little-endian bytes are `t`. -/
def unle32 (t : List Byte) : Word32 := t.foldr (fun b acc => zext32 b + acc * 256) 0

/-- `esc(b)` (R43): the wire bytes of one logical byte. -/
def esc (b : Byte) : List Byte :=
  if b = END then [ESC, ESC_END] else if b = ESC then [ESC, ESC_ESC] else [b]

/-- `esc*(P)` (R43): the concatenation of `esc(b)` over `P`. -/
def escSeq (P : List Byte) : List Byte := P.flatMap esc

/-- The wire form of a payload: with the raw trailer for `CKEN = 1` (R49), without one for `CKEN = 0` (R50). -/
def wire (cken : Bool) (P : List Byte) : List Byte :=
  if cken then escSeq P ++ le32 (cks P) ++ [END] else escSeq P ++ [END]

/-- `RX_BUF[0 .. n-4)`: the buffer without its last four bytes (R83). -/
def payloadPart (buf : List Byte) : List Byte := buf.take (buf.length - 4)

/-- `RX_BUF[n-4 .. n)`: the last four bytes of the buffer (R82). -/
def trailerPart (buf : List Byte) : List Byte := buf.drop (buf.length - 4)

end Sys2Proof.Machine
end

