-- ==== Sys2Proof/Machine/Flags.lean ====
section
/-! DEFINITION. The flags `RX_ESC` and `RX_ACK` (R25) and the tests the rows of the opcode table are told apart by (R58):
the length test (R81) and the checksum test (R82). The block has no condition codes (R25). -/

namespace Sys2Proof.Machine

/-- `RX_ESC <- v` (R16). -/
def State.setEsc (v : Bool) (s : State) : State := { s with rxEsc := v }

/-- `RX_ACK <- 1` (R18, R76). -/
def State.setAck (s : State) : State := { s with rxAck := true }

/-- `len(RX_BUF) < 4`: the trailer is truncated (R81). -/
def bufShort (s : State) : Bool := decide (s.rxBuf.length < 4)

/-- `rx`, the received checksum (R82). -/
def receivedCks (s : State) : Word32 := unle32 (trailerPart s.rxBuf)

/-- `exp`, the expected checksum (R82): the accumulator less the contributions of the last four bytes. -/
def expectedCks (s : State) : Word32 := sub32 s.rxAcc (BitVec.ofNat 32 (contribSum (trailerPart s.rxBuf)))

/-- The checksum test passes: `rx = exp` (R83). -/
def ckPass (s : State) : Bool := receivedCks s == expectedCks s

/-- What the rows' conditions ask of a state (R58). -/
def State.ctx (s : State) : Ctx :=
  { cken := s.params.cken, policy := s.params.escEndPolicy, rxEsc := s.rxEsc, pqEmpty := s.pq.isEmpty,
    bufShort := bufShort s, ckPass := ckPass s }

end Sys2Proof.Machine
end

