-- ==== Sys2Proof/Machine/Ops.lean ====
section
/-! DEFINITION. The shared operations: the block-specific primitives of R12 (`emit`, `enqueue`, `event`), the procedures
of the decoder (`reset_decoder` R72, `append` R73, `accept` R85, the discard R100), the accumulator of the encoder, the
results of the queue's operations, and taking the next request. There is no memory operation: the block has no
addressable memory (R28). -/

namespace Sys2Proof.Machine

/-- `emit` for each of `ws`, in order (R12, R38): appended to `TXW`. It cannot fail (R68). -/
def State.emit (ws : List Byte) (s : State) : State := { s with txw := s.txw ++ ws }

/-- `TX_ACC <- add32(TX_ACC, zext_32(b) + 1)` (R59). -/
def State.accumulateTx (b : Byte) (s : State) : State := { s with txAcc := add32 s.txAcc (contrib b) }

/-- `TX_ACC <- 0` (R63, R64). -/
def State.clearTx (s : State) : State := { s with txAcc := 0 }

/-- `append(v)` (R73). -/
def State.append (v : Byte) (s : State) : State :=
  { s with rxBuf := s.rxBuf ++ [v], rxAcc := add32 s.rxAcc (contrib v) }

/-- `reset_decoder()` (R72). -/
def State.resetDecoder (s : State) : State := { s with rxBuf := [], rxEsc := false, rxAcc := 0, rxAck := false }

/-- `enqueue(p)` (R92): append to the tail of `PQ`. -/
def State.enqueue (p : Packet) (s : State) : State := { s with pq := s.pq ++ [p] }

/-- `event(e)` (R12): append to the trace `EVT`. -/
def State.event (e : Event) (s : State) : State := { s with evt := s.evt ++ [e] }

/-- A discard (R100), the block's analogue of taking an exception: the diagnostic `RX_DROP(c)` (R105), then
`reset_decoder()`, and nothing else. It saves nothing and there is no return from it (R101). -/
def State.discard (c : DropCause) (s : State) : State := (s.event (.rxDrop c)).resetDecoder

/-- `accept(p)` (R85): enqueue, notify (R104), return to the clean state. -/
def State.accept (p : Packet) (s : State) : State := ((s.enqueue p).event .pktEvt).resetDecoder

/-- Return a result (R93, R94, R95). -/
def State.report (r : Result) (s : State) : State := { s with results := s.results ++ [r] }

/-- Remove the head of `PQ` (R93): `PQ <- PQ[1 .. len(PQ))`. -/
def State.dropHead (s : State) : State := { s with pq := s.pq.tail }

/-- `PQ <- []` (R111). -/
def State.clearQueue (s : State) : State := { s with pq := [] }

/-- The parameters of the new session are those supplied with the `RESET` (R111); when none are listed, the environment
supplies the same values again (DESIGN CHOICE, notes/assumptions/3.md). -/
def State.takeSupply (s : State) : State := { s with params := s.supplies.headD s.params, supplies := s.supplies.tail }

/-- The next request the environment presents, and the state without it; none when nothing is presented. -/
def State.fetch (s : State) : Option (Req × State) :=
  match s.pending with
  | [] => none
  | w :: rest => some (w, { s with pending := rest })

/-- Present the request word whose bits are `w` next. A number of more than 11 bits is no request word and cannot be
presented (R55; notes/assumptions/7.md). -/
def State.present (w : Nat) (s : State) : State :=
  if w < 2 ^ 11 then { s with pending := BitVec.ofNat 11 w :: s.pending } else s

/-- The meaning of a row that is told apart from others of its request word by configuration or state (R58): its own
rule's effect where its conditions hold, and elsewhere the effect of its request word, which is that of the row selected
there (DEDUCED, notes/assumptions/5.md). -/
def asRow (selected : Bool) (own whole : State) : Host.Outcome State Fault Refusal :=
  .next (if selected then own else whole)

end Sys2Proof.Machine
end

