-- ==== Sys2Proof/Machine/Queue.lean ====
section
/-! DEFINITION. The Packet Queue's operations on the Q channel: `DEQ` with its two rows and `QCNT` (42_packet_queue.md).
`enqueue` is internal to the decoder (R92) and stands in Ops.lean. -/

namespace Sys2Proof.Machine

/-- R93: return the head `p` and remove it. -/
def dequeueHead (p : Packet) (s : State) : State := (s.report (.packet p)).dropHead

/-- R94: return `EMPTY`; nothing else changes. -/
def dequeueEmpty (s : State) : State := s.report .empty

/-- `DEQ`: R93 or R94, by whether `PQ` is empty. -/
def dequeue (s : State) : State :=
  match s.pq with
  | p :: _ => dequeueHead p s
  | [] => dequeueEmpty s

/-- `DEQ.HEAD` (R93). -/
def execDeqHead (s : State) : Host.Outcome State Fault Refusal :=
  match s.pq with
  | p :: _ => .next (dequeueHead p s)
  | [] => .next (dequeue s)

/-- `DEQ.EMPTY` (R94). -/
def execDeqEmpty (s : State) : Host.Outcome State Fault Refusal := asRow s.pq.isEmpty (dequeueEmpty s) (dequeue s)

/-- `QCNT` (R95): return `len(PQ)`. -/
def execQcnt (s : State) : Host.Outcome State Fault Refusal := .next (s.report (.count s.pq.length))

end Sys2Proof.Machine
end

