-- ==== Sys2Proof/Machine/Receive.lean ====
section
/-! DEFINITION. The decoder: `RXB` and its eleven case rows (41_rx_decoder.md). `RXB` is total and silent (R87). -/

namespace Sys2Proof.Machine

/-- R74: `RX_ESC <- 0; append(0xC0)`. -/
def rxUnescapeEnd (s : State) : State := (s.setEsc false).append 0xC0#8

/-- R75: `RX_ESC <- 0; append(0xDB)`. -/
def rxUnescapeEsc (s : State) : State := (s.setEsc false).append 0xDB#8

/-- R76: `RX_ESC <- 0; RX_ACK <- 1`, and nothing else. -/
def rxEndInEscapeFlag (s : State) : State := (s.setEsc false).setAck

/-- R77: `event(RX_DROP(3)); reset_decoder()`. -/
def rxEndInEscapeDiscard (s : State) : State := s.discard .badEscape

/-- R78: `event(RX_DROP(3)); reset_decoder()`; the byte is consumed, not appended and not examined again. -/
def rxBadEscape (s : State) : State := s.discard .badEscape

/-- R79: `RX_ESC <- 1`. -/
def rxEscape (s : State) : State := s.setEsc true

/-- R81: `event(RX_DROP(1)); reset_decoder()`. -/
def rxShortFrame (s : State) : State := s.discard .truncatedTrailer

/-- R82: `event(RX_DROP(2)); reset_decoder()`. -/
def rxMismatch (s : State) : State := s.discard .checksumMismatch

/-- R83: `accept(RX_BUF[0 .. n-4))`. -/
def rxMatch (s : State) : State := s.accept (payloadPart s.rxBuf)

/-- R84: `accept(RX_BUF)`. -/
def rxNoCheck (s : State) : State := s.accept s.rxBuf

/-- R86: `append(b)`. -/
def rxData (b : Byte) (s : State) : State := s.append b

/-- The frame boundary (R80): the length test before the checksum test. -/
def rxBoundary (s : State) : State :=
  if s.params.cken then
    if bufShort s then rxShortFrame s else if ckPass s then rxMatch s else rxMismatch s
  else rxNoCheck s

/-- An escape is pending (41_rx_decoder.md section 2). -/
def rxEscaped (b : Byte) (s : State) : State :=
  if b = ESC_END then rxUnescapeEnd s
  else if b = ESC_ESC then rxUnescapeEsc s
  else if b = END then
    match s.params.escEndPolicy with
    | .flagOnly => rxEndInEscapeFlag s
    | .discard => rxEndInEscapeDiscard s
  else rxBadEscape s

/-- The whole transition (R71), in the priority order of its cases: `RX_ESC` first. -/
def rxByte (b : Byte) (s : State) : State :=
  if s.rxEsc then rxEscaped b s
  else if b = ESC then rxEscape s
  else if b = END then rxBoundary s
  else rxData b s

/-- `RXB` (R71). -/
def execRxb (b : Byte) (s : State) : Host.Outcome State Fault Refusal := .next (rxByte b s)

/-- `RXB.E.ESC_END` (R74). -/
def execRxbEEscEnd (s : State) : Host.Outcome State Fault Refusal := asRow s.rxEsc (rxUnescapeEnd s) (rxByte ESC_END s)

/-- `RXB.E.ESC_ESC` (R75). -/
def execRxbEEscEsc (s : State) : Host.Outcome State Fault Refusal := asRow s.rxEsc (rxUnescapeEsc s) (rxByte ESC_ESC s)

/-- `RXB.E.END.FLAG` (R76). -/
def execRxbEEndFlag (s : State) : Host.Outcome State Fault Refusal :=
  asRow (s.rxEsc && s.params.escEndPolicy == .flagOnly) (rxEndInEscapeFlag s) (rxByte END s)

/-- `RXB.E.END.DISCARD` (R77). -/
def execRxbEEndDiscard (s : State) : Host.Outcome State Fault Refusal :=
  asRow (s.rxEsc && s.params.escEndPolicy == .discard) (rxEndInEscapeDiscard s) (rxByte END s)

/-- `RXB.E.OTHER` (R78). -/
def execRxbEOther (b : Byte) (s : State) : Host.Outcome State Fault Refusal :=
  asRow (s.rxEsc && b != ESC_END && b != ESC_ESC && b != END) (rxBadEscape s) (rxByte b s)

/-- `RXB.N.ESC` (R79). -/
def execRxbNEsc (s : State) : Host.Outcome State Fault Refusal := asRow (!s.rxEsc) (rxEscape s) (rxByte ESC s)

/-- `RXB.N.END.SHORT` (R81). -/
def execRxbNEndShort (s : State) : Host.Outcome State Fault Refusal :=
  asRow (!s.rxEsc && s.params.cken && bufShort s) (rxShortFrame s) (rxByte END s)

/-- `RXB.N.END.MISMATCH` (R82). -/
def execRxbNEndMismatch (s : State) : Host.Outcome State Fault Refusal :=
  asRow (!s.rxEsc && s.params.cken && !bufShort s && !ckPass s) (rxMismatch s) (rxByte END s)

/-- `RXB.N.END.MATCH` (R83). -/
def execRxbNEndMatch (s : State) : Host.Outcome State Fault Refusal :=
  asRow (!s.rxEsc && s.params.cken && !bufShort s && ckPass s) (rxMatch s) (rxByte END s)

/-- `RXB.N.END.NOCK` (R84). -/
def execRxbNEndNock (s : State) : Host.Outcome State Fault Refusal :=
  asRow (!s.rxEsc && !s.params.cken) (rxNoCheck s) (rxByte END s)

/-- `RXB.N.DATA` (R86). -/
def execRxbNData (b : Byte) (s : State) : Host.Outcome State Fault Refusal :=
  asRow (!s.rxEsc && b != ESC && b != END) (rxData b s) (rxByte b s)

end Sys2Proof.Machine
end

