-- ==== Sys2Proof/Machine/Session.lean ====
section
/-! DEFINITION. `RESET` (R111). -/

namespace Sys2Proof.Machine

/-- `RESET` (R111): `TX_ACC <- 0; reset_decoder(); PQ <- []`, with the parameters of the new session; it emits nothing,
so the traces stay. -/
def execReset (s : State) : Host.Outcome State Fault Refusal := .next ((s.clearTx.resetDecoder).clearQueue).takeSupply

end Sys2Proof.Machine
end

