-- ==== Sys2Proof/Machine/Transmit.lean ====
section
/-! DEFINITION. The encoder: `TXB` and `TXEND` with their rows (40_tx_encoder.md). It reads and writes `TX_ACC` and
appends to `TXW`; no operation fails (R68). -/

namespace Sys2Proof.Machine

/-- R59: emit `esc(b)`, add the contribution of the logical byte. -/
def txByte (b : Byte) (s : State) : State := (s.emit (esc b)).accumulateTx b

/-- R60: `emit(0xDB); emit(0xDC)`, add `0xC1`. -/
def txReservedEnd (s : State) : State := (s.emit [0xDB#8, 0xDC#8]).accumulateTx 0xC0#8

/-- R61: `emit(0xDB); emit(0xDD)`, add `0xDC`. -/
def txReservedEsc (s : State) : State := (s.emit [0xDB#8, 0xDD#8]).accumulateTx 0xDB#8

/-- R62: `emit(b)`, add `b + 1`. -/
def txLiteral (b : Byte) (s : State) : State := (s.emit [b]).accumulateTx b

/-- R63: the raw little-endian trailer, `END`, and `TX_ACC <- 0`. -/
def txEndChecked (s : State) : State := ((s.emit (le32 s.txAcc)).emit [END]).clearTx

/-- R64: `END` and `TX_ACC <- 0`. -/
def txEndPlain (s : State) : State := (s.emit [END]).clearTx

/-- `TXEND`: R63 or R64, by `CKEN`. -/
def txEnd (s : State) : State := if s.params.cken then txEndChecked s else txEndPlain s

/-- `TXB` (R59). -/
def execTxb (b : Byte) (s : State) : Host.Outcome State Fault Refusal := .next (txByte b s)

/-- `TXB.END` (R60). -/
def execTxbEnd (s : State) : Host.Outcome State Fault Refusal := .next (txReservedEnd s)

/-- `TXB.ESC` (R61). -/
def execTxbEsc (s : State) : Host.Outcome State Fault Refusal := .next (txReservedEsc s)

/-- `TXB.LIT` (R62). -/
def execTxbLit (b : Byte) (s : State) : Host.Outcome State Fault Refusal :=
  asRow (b != END && b != ESC) (txLiteral b s) (txByte b s)

/-- `TXEND.CK1` (R63). -/
def execTxendCk1 (s : State) : Host.Outcome State Fault Refusal := asRow s.params.cken (txEndChecked s) (txEnd s)

/-- `TXEND.CK0` (R64). -/
def execTxendCk0 (s : State) : Host.Outcome State Fault Refusal := asRow (!s.params.cken) (txEndPlain s) (txEnd s)

end Sys2Proof.Machine
end

