-- ==== Sys2Proof/Machine/Dispatch.lean ====
section
/-! DEFINITION. The dispatch: one arm per constructor of Instr, one direct call of its meaning. -/

namespace Sys2Proof.Machine

def exec (i : Instr) (s : State) : Host.Outcome State Fault Refusal :=
  match i with
  -- rows of format OP
  | .txb b => Sys2Proof.Machine.execTxb b s
  | .txendCk1 => Sys2Proof.Machine.execTxendCk1 s
  | .txendCk0 => Sys2Proof.Machine.execTxendCk0 s
  | .rxb b => Sys2Proof.Machine.execRxb b s
  | .deqHead => Sys2Proof.Machine.execDeqHead s
  | .deqEmpty => Sys2Proof.Machine.execDeqEmpty s
  | .qcnt => Sys2Proof.Machine.execQcnt s
  | .reset => Sys2Proof.Machine.execReset s
  -- rows of format TXB_CASE
  | .txbEnd => Sys2Proof.Machine.execTxbEnd s
  | .txbEsc => Sys2Proof.Machine.execTxbEsc s
  | .txbLit b => Sys2Proof.Machine.execTxbLit b s
  -- rows of format RXB_CASE
  | .rxbEEscEnd => Sys2Proof.Machine.execRxbEEscEnd s
  | .rxbEEscEsc => Sys2Proof.Machine.execRxbEEscEsc s
  | .rxbEEndFlag => Sys2Proof.Machine.execRxbEEndFlag s
  | .rxbEEndDiscard => Sys2Proof.Machine.execRxbEEndDiscard s
  | .rxbEOther b => Sys2Proof.Machine.execRxbEOther b s
  | .rxbNEsc => Sys2Proof.Machine.execRxbNEsc s
  | .rxbNEndShort => Sys2Proof.Machine.execRxbNEndShort s
  | .rxbNEndMismatch => Sys2Proof.Machine.execRxbNEndMismatch s
  | .rxbNEndMatch => Sys2Proof.Machine.execRxbNEndMatch s
  | .rxbNEndNock => Sys2Proof.Machine.execRxbNEndNock s
  | .rxbNData b => Sys2Proof.Machine.execRxbNData b s

end Sys2Proof.Machine
end

