-- ==== Sys2Proof/Machine/Step.lean ====
section
/-! DEFINITION. One step: the next request word is taken, decoded in the state it finds, and run (R11, R34). -/

namespace Sys2Proof.Machine

/-- One step of the machine. With nothing presented nothing changes (R109; DEDUCED, notes/assumptions/6.md); a reserved
word is refused (R56). -/
def step (s : State) : Host.Outcome State Fault Refusal :=
  match s.fetch with
  | none => .next s
  | some (w, t) =>
    match decode s.ctx w with
    | .ok i => exec i t
    | .error _ => .refused (.reservedRequest (reqOp w))

/-- `s` with the request word whose bits are `w` presented next, so that the very next step runs it. -/
def State.withFetchWord (s : State) (_nbits w : Nat) : State := s.present w

end Sys2Proof.Machine
end

