-- ==== Sys2Proof/Safety.lean ====
section
/-! DEFINITION. The terms claims are stated in: runs of instructions, the invariant of the block (R22, R77), the clean
state of the decoder (R72), what the encoder has accumulated (R22, I2), and interleavings of two channels (R34). -/

namespace Sys2Proof.Machine

/-- Run a list of instructions, stopping at the first that does not answer a next state. -/
def run : List Instr → State → Host.Outcome State Fault Refusal
  | [], s => .next s
  | i :: is, s =>
    match exec i s with
    | .next t => run is t
    | .fault f => .fault f
    | .refused r => .refused r

/-- The invariant: I1 of R22, and that `RX_ACK` is 0 under `ESC_END_POLICY = DISCARD` (R18, R77). -/
structure State.Inv (s : State) : Prop where
  /-- I1: `RX_ACC = cks(RX_BUF)`. -/
  rxAcc_eq : s.rxAcc = cks s.rxBuf
  /-- With `DISCARD`, `RX_ACK` is never 1 after any step. -/
  rxAck_discard : s.params.escEndPolicy = .discard → s.rxAck = false

/-- The clean state of the decoder (R72; 00_scope.md glossary). -/
def State.Clean (s : State) : Prop := s.rxBuf = [] ∧ s.rxEsc = false ∧ s.rxAck = false ∧ s.rxAcc = 0

/-- The operand of a `TXB` row. -/
def txOperand : Instr → Option Byte
  | .txb b => some b
  | .txendCk1 => none
  | .txendCk0 => none
  | .rxb _ => none
  | .deqHead => none
  | .deqEmpty => none
  | .qcnt => none
  | .reset => none
  | .txbEnd => some END
  | .txbEsc => some ESC
  | .txbLit b => some b
  | .rxbEEscEnd => none
  | .rxbEEscEsc => none
  | .rxbEEndFlag => none
  | .rxbEEndDiscard => none
  | .rxbEOther _ => none
  | .rxbNEsc => none
  | .rxbNEndShort => none
  | .rxbNEndMismatch => none
  | .rxbNEndMatch => none
  | .rxbNEndNock => none
  | .rxbNData _ => none

/-- Does the instruction end the sequence `S` of I2 (R22): a `TXEND` row or `RESET`? -/
def endsTxSum : Instr → Bool
  | .txb _ => false
  | .txendCk1 => true
  | .txendCk0 => true
  | .rxb _ => false
  | .deqHead => false
  | .deqEmpty => false
  | .qcnt => false
  | .reset => true
  | .txbEnd => false
  | .txbEsc => false
  | .txbLit _ => false
  | .rxbEEscEnd => false
  | .rxbEEscEsc => false
  | .rxbEEndFlag => false
  | .rxbEEndDiscard => false
  | .rxbEOther _ => false
  | .rxbNEsc => false
  | .rxbNEndShort => false
  | .rxbNEndMismatch => false
  | .rxbNEndMatch => false
  | .rxbNEndNock => false
  | .rxbNData _ => false

/-- The sequence `S` of I2 (R22) after one more instruction: the `TXB` operands since the latest `TXEND` or `RESET`. -/
def txSince (S : List Byte) (i : Instr) : List Byte := if endsTxSum i then [] else S ++ (txOperand i).toList

/-- No byte of the list is `0xC0` or `0xDB`: the side condition of R89 on a trailer. -/
def NoReserved (t : List Byte) : Prop := ∀ b ∈ t, b ≠ END ∧ b ≠ ESC

/-- The packets the decoder appends to `PQ` when `i` runs in `s` (R92): what is new at the tail. Only an `RXB` row
appends. -/
def enqueuedBy (i : Instr) (s : State) : List Packet :=
  match i.channel, exec i s with
  | .rx, .next t => t.pq.drop s.pq.length
  | _, _ => []

/-- The packets enqueued in a run, in order (R96). -/
def enqueuedIn : List Instr → State → List Packet
  | [], _ => []
  | i :: is, s =>
    match exec i s with
    | .next t => enqueuedBy i s ++ enqueuedIn is t
    | .fault _ => []
    | .refused _ => []

/-- The packets among a list of results, in order (R96). -/
def packetsOf : List Result → List Packet
  | [] => []
  | .packet p :: rs => p :: packetsOf rs
  | .empty :: rs => packetsOf rs
  | .count _ :: rs => packetsOf rs

/-- `Interleaving xs ys zs`: `zs` merges `xs` and `ys`, keeping the order within each (R34). -/
inductive Interleaving {α : Type} : List α → List α → List α → Prop where
  | nil : Interleaving [] [] []
  | left {x : α} {xs ys zs : List α} : Interleaving xs ys zs → Interleaving (x :: xs) ys (x :: zs)
  | right {y : α} {xs ys zs : List α} : Interleaving xs ys zs → Interleaving xs (y :: ys) (y :: zs)

end Sys2Proof.Machine
end

