-- ==== Sys2Proof/Certificates/Slice0/Obligations.lean ====
section
/-! DEFINITION. The statements for the provers. Each docstring names the rule or the section of spec/ it formalises;
"the spec's own decision" or "derived in the spec" says that the clause is an inference the spec marks as its own. Two
such decisions stand inside the rules themselves wherever a statement repeats a rule whole: the operation numbers of a
request word (D2) and the diagnostic `RX_DROP` with its causes (D11). -/

open Sys2Proof Sys2Proof.Machine

/-! ### Encoding and decoding -/

/-- Every row, of all three groups, with every well-formed operand and in every context that selects it: its group's
decoding of its encoding is the row itself. The numbers are the spec's own decision D2; the reading is that of R58. -/
def Obligations.EveryRowDecodesFromItsEncoding : Prop :=
  ∀ (c : Ctx) (i : Instr), i.wf = true → i.selected c = true → decodeInGroup i.group c (encode i) = some i

/-- What the decoder answers is well formed, is selected by the context, and encodes to the word it was read from, up to
the ignored `data` of the four operations that take no operand. -/
def Obligations.DecodedInstructionIsSelectedAndEncodesBack : Prop :=
  ∀ (c : Ctx) (w : Req) (i : Instr), decode c w = .ok i →
    i.wf = true ∧ i.selected c = true ∧ reqOp (encode i) = reqOp w ∧
    ((reqOp w = 1#3 ∨ reqOp w = 3#3) → encode i = w)

/-- A word is refused exactly when its operation number is 0 or 6 (R56; the spec's own decision D2), and the refusal
names the number. -/
def Obligations.DecoderRefusesExactlyReservedOperations : Prop :=
  ∀ (c : Ctx) (w : Req),
    ((reqOp w = 0#3 ∨ reqOp w = 6#3) → decode c w = .error (.reservedOperation (reqOp w))) ∧
    (¬ (reqOp w = 0#3 ∨ reqOp w = 6#3) → ∃ i, decode c w = .ok i)

/-- `data` is ignored by `TXEND`, `DEQ`, `QCNT` and `RESET`: any two values of it decode alike (R55, U6; the numbers are
the spec's own decision D2). -/
def Obligations.IgnoredDataDoesNotChangeTheInstruction : Prop :=
  ∀ (c : Ctx) (o : BitVec 3) (d d' : Byte), (o = 2#3 ∨ o = 4#3 ∨ o = 5#3 ∨ o = 7#3) →
    decode c (o ++ d : BitVec (3 + 8)) = decode c (o ++ d' : BitVec (3 + 8))

/-- The request words of 95_test_vectors.md section 2.10, in every context, with the condition of the row where it has
one. -/
def Obligations.RequestWordsDecodeAsTheVectorsSay : Prop :=
  ∀ c : Ctx,
    decodeInGroup .op c 0x102#11 = some (.txb 0x02#8) ∧
    decode c 0x1C0#11 = .ok .txbEnd ∧
    decode c 0x1DB#11 = .ok .txbEsc ∧
    (c.cken = true → decode c 0x200#11 = .ok .txendCk1 ∧ decode c 0x2FF#11 = .ok .txendCk1) ∧
    (c.cken = false → decode c 0x200#11 = .ok .txendCk0 ∧ decode c 0x2FF#11 = .ok .txendCk0) ∧
    decodeInGroup .op c 0x3C0#11 = some (.rxb 0xC0#8) ∧
    (c.rxEsc = false → decode c 0x3DB#11 = .ok .rxbNEsc) ∧
    (c.pqEmpty = false → decode c 0x400#11 = .ok .deqHead ∧ decode c 0x455#11 = .ok .deqHead) ∧
    (c.pqEmpty = true → decode c 0x400#11 = .ok .deqEmpty ∧ decode c 0x455#11 = .ok .deqEmpty) ∧
    decode c 0x500#11 = .ok .qcnt ∧
    decode c 0x700#11 = .ok .reset ∧
    decode c 0x000#11 = .error (.reservedOperation 0#3) ∧
    decode c 0x0C0#11 = .error (.reservedOperation 0#3) ∧
    decode c 0x600#11 = .error (.reservedOperation 6#3) ∧
    decode c 0x6FF#11 = .error (.reservedOperation 6#3)

/-! ### The step -/

/-- A step takes the next request word, decodes it in the state it finds, and runs the instruction on the state without
that word. -/
def Obligations.StepRunsTheDecodedInstruction : Prop :=
  ∀ (s : State) (w : Req) (rest : List Req) (i : Instr), s.pending = w :: rest → decode s.ctx w = .ok i →
    step s = exec i { s with pending := rest }

/-- Presenting any instruction's request word runs that instruction, in every state: also a case row where another row of
its word is selected, since a row stands for its request word (the model's reading of R58, notes/assumptions/5.md). -/
def Obligations.StepOfAnEncodedInstructionRunsIt : Prop :=
  ∀ (i : Instr) (s : State) (rest : List Req), s.pending = encode i :: rest → step s = exec i { s with pending := rest }

/-- A reserved word selects no operation and is refused (R56; the spec's own decision D2). -/
def Obligations.StepRefusesAReservedWord : Prop :=
  ∀ (s : State) (w : Req) (rest : List Req), s.pending = w :: rest → (reqOp w = 0#3 ∨ reqOp w = 6#3) →
    step s = .refused (.reservedRequest (reqOp w))

/-- With no operation presented, nothing changes (R109; the model's step for it, notes/assumptions/6.md). -/
def Obligations.StepWithNothingPresentedChangesNothing : Prop :=
  ∀ s : State, s.pending = [] → step s = .next s

/-- `withFetchWord`, the model's own presenting function and no notion of the spec (DESIGN CHOICE, notes/assumptions/2.md,
for words of 11 bits, notes/assumptions/7.md), presents a request word so that the next step decodes and runs exactly
it. -/
def Obligations.StepAfterWithFetchWordRunsThatWord : Prop :=
  ∀ (s : State) (nbits w : Nat) (i : Instr), w < 2 ^ 11 → decode s.ctx (BitVec.ofNat 11 w) = .ok i →
    step (s.withFetchWord nbits w) = exec i s

/-- R87, R98: no operation faults or is refused; each has exactly one outcome kind, a next state. For `TXB` and `TXEND`
this assumes that the transport accepts every byte (the spec's own decision D12, notes/assumptions/15.md); for a row
outside its conditions it is the model's reading (DEDUCED, notes/assumptions/5.md). -/
def Obligations.EveryOperationAnswersANextState : Prop :=
  ∀ (i : Instr) (s : State), ∃ t, exec i s = .next t

/-! ### The encoder -/

/-- R59: `TXB b`. -/
def Obligations.TxbEmitsEscapeAndAddsContribution : Prop :=
  ∀ (b : Byte) (s : State),
    encode (.txb b) = BitVec.ofNat 11 (0x100 + b.toNat) ∧
    exec (.txb b) s = .next { s with
      txw := s.txw ++ (if b = 0xC0#8 then [0xDB#8, 0xDC#8] else if b = 0xDB#8 then [0xDB#8, 0xDD#8] else [b])
      txAcc := BitVec.ofNat 32 (s.txAcc.toNat + b.toNat + 1) }

/-- R60, R61: `TXB` of the two reserved values, as rows of their own and as `TXB`. -/
def Obligations.TxbOfReservedByteEmitsEscapePair : Prop :=
  ∀ s : State,
    encode .txbEnd = 0x1C0#11 ∧ encode .txbEsc = 0x1DB#11 ∧
    exec .txbEnd s = .next { s with txw := s.txw ++ [0xDB#8, 0xDC#8], txAcc := BitVec.ofNat 32 (s.txAcc.toNat + 0xC1) } ∧
    exec (.txb 0xC0#8) s = exec .txbEnd s ∧
    exec .txbEsc s = .next { s with txw := s.txw ++ [0xDB#8, 0xDD#8], txAcc := BitVec.ofNat 32 (s.txAcc.toNat + 0xDC) } ∧
    exec (.txb 0xDB#8) s = exec .txbEsc s

/-- R62: `TXB` of any other byte. -/
def Obligations.TxbOfOtherByteEmitsItUnchanged : Prop :=
  ∀ (b : Byte) (s : State), b ≠ 0xC0#8 → b ≠ 0xDB#8 →
    encode (.txbLit b) = BitVec.ofNat 11 (0x100 + b.toNat) ∧
    exec (.txbLit b) s = .next { s with
      txw := s.txw ++ [b], txAcc := BitVec.ofNat 32 (s.txAcc.toNat + b.toNat + 1) } ∧
    exec (.txb b) s = exec (.txbLit b) s

/-- `TXEND` with `CKEN = 1`, the effect that R63 gives. Two clauses are the model's: the row `TXEND.CK0` has the effect of
its request word here too (DEDUCED, notes/assumptions/5.md), and the word `encode` gives has the ignored `data` at zero
(DESIGN CHOICE, notes/assumptions/9.md). -/
def Obligations.TxendWithChecksumEmitsRawTrailer : Prop :=
  ∀ s : State, s.params.cken = true →
    encode .txendCk1 = 0x200#11 ∧
    exec .txendCk1 s = .next { s with
      txw := s.txw ++ [BitVec.ofNat 8 s.txAcc.toNat, BitVec.ofNat 8 (s.txAcc.toNat / 2 ^ 8),
        BitVec.ofNat 8 (s.txAcc.toNat / 2 ^ 16), BitVec.ofNat 8 (s.txAcc.toNat / 2 ^ 24), 0xC0#8]
      txAcc := 0 } ∧
    exec .txendCk0 s = exec .txendCk1 s

/-- `TXEND` with `CKEN = 0`, the effect that R64 gives. Two clauses are the model's: the row `TXEND.CK1` has the effect of
its request word here too (DEDUCED, notes/assumptions/5.md), and the word `encode` gives has the ignored `data` at zero
(DESIGN CHOICE, notes/assumptions/9.md). -/
def Obligations.TxendWithoutChecksumEmitsEndOnly : Prop :=
  ∀ s : State, s.params.cken = false →
    encode .txendCk0 = 0x200#11 ∧
    exec .txendCk0 s = .next { s with txw := s.txw ++ [0xC0#8], txAcc := 0 } ∧
    exec .txendCk1 s = exec .txendCk0 s

/-- R65, R70: `SEND P` emits `esc*(P)` and adds `cks(P)` to `TX_ACC`, and nothing else. -/
def Obligations.SendEmitsEscapedBytesAndSumsThem : Prop :=
  ∀ (P : List Byte) (s : State),
    run (send P) s = .next { s with txw := s.txw ++ escSeq P, txAcc := s.txAcc + cks P }

/-- R66 (derived in the spec): from `TX_ACC = 0`, `FRAME P` appends exactly the wire form of R49 or R50 and leaves
`TX_ACC = 0`. -/
def Obligations.FrameEmitsTheWireForm : Prop :=
  ∀ (P : List Byte) (s : State), s.txAcc = 0 →
    run (frame P) s = .next { s with
      txw := s.txw ++ (escSeq P ++ (if s.params.cken = true then le32 (cks P) else []) ++ [0xC0#8]) }

/-- R69 (derived in the spec): what a sequence of `TXB` operations emits holds no `0xC0`, and `0xDB` only as the first
byte of a pair `DB DC` or `DB DD`. -/
def Obligations.SentBytesHoldNoLiteralReservedByte : Prop :=
  ∀ (P : List Byte) (s t : State), run (send P) s = .next t →
    ∃ W, t.txw = s.txw ++ W ∧ 0xC0#8 ∉ W ∧
      ∀ k, W[k]? = some 0xDB#8 → W[k + 1]? = some 0xDC#8 ∨ W[k + 1]? = some 0xDD#8

/-- I2 of R22 (derived in the spec): along every run `TX_ACC` is the checksum of the `TXB` operands since the latest
`TXEND` or `RESET`. -/
def Obligations.TxAccIsChecksumOfOperandsSinceTxend : Prop :=
  ∀ (is : List Instr) (S : List Byte) (s t : State), s.txAcc = cks S → run is s = .next t →
    t.txAcc = cks (is.foldl txSince S)

/-! ### The decoder -/

/-- R74, R75: the two valid second bytes of an escape pair. -/
def Obligations.RxbUnescapesAValidPair : Prop :=
  ∀ s : State, s.rxEsc = true →
    encode .rxbEEscEnd = 0x3DC#11 ∧ encode .rxbEEscEsc = 0x3DD#11 ∧
    exec .rxbEEscEnd s = .next { s with
      rxEsc := false, rxBuf := s.rxBuf ++ [0xC0#8], rxAcc := BitVec.ofNat 32 (s.rxAcc.toNat + 0xC1) } ∧
    exec (.rxb 0xDC#8) s = exec .rxbEEscEnd s ∧
    exec .rxbEEscEsc s = .next { s with
      rxEsc := false, rxBuf := s.rxBuf ++ [0xDB#8], rxAcc := BitVec.ofNat 32 (s.rxAcc.toNat + 0xDC) } ∧
    exec (.rxb 0xDD#8) s = exec .rxbEEscEsc s

/-- R76: `END` while an escape is pending, `FLAG_ONLY`. -/
def Obligations.RxbEndInEscapeSetsAckOnly : Prop :=
  ∀ s : State, s.rxEsc = true → s.params.escEndPolicy = .flagOnly →
    encode .rxbEEndFlag = 0x3C0#11 ∧
    exec .rxbEEndFlag s = .next { s with rxEsc := false, rxAck := true } ∧
    exec (.rxb 0xC0#8) s = exec .rxbEEndFlag s

/-- R77: `END` while an escape is pending, `DISCARD`. -/
def Obligations.RxbEndInEscapeDiscards : Prop :=
  ∀ s : State, s.rxEsc = true → s.params.escEndPolicy = .discard →
    encode .rxbEEndDiscard = 0x3C0#11 ∧
    exec .rxbEEndDiscard s = .next { s with
      rxBuf := [], rxEsc := false, rxAcc := 0, rxAck := false, evt := s.evt ++ [.rxDrop .badEscape] } ∧
    exec (.rxb 0xC0#8) s = exec .rxbEEndDiscard s

/-- R78 (the spec's own decision D6): any other byte while an escape is pending discards the frame. -/
def Obligations.RxbBadEscapeDiscards : Prop :=
  ∀ (b : Byte) (s : State), s.rxEsc = true → b ≠ 0xDC#8 → b ≠ 0xDD#8 → b ≠ 0xC0#8 →
    encode (.rxbEOther b) = BitVec.ofNat 11 (0x300 + b.toNat) ∧
    exec (.rxbEOther b) s = .next { s with
      rxBuf := [], rxEsc := false, rxAcc := 0, rxAck := false, evt := s.evt ++ [.rxDrop .badEscape] } ∧
    exec (.rxb b) s = exec (.rxbEOther b) s

/-- R79: `ESC` with no escape pending. -/
def Obligations.RxbEscSetsEscapePending : Prop :=
  ∀ s : State, s.rxEsc = false →
    encode .rxbNEsc = 0x3DB#11 ∧
    exec .rxbNEsc s = .next { s with rxEsc := true } ∧
    exec (.rxb 0xDB#8) s = exec .rxbNEsc s

/-- R81: a frame boundary with fewer than four bytes buffered, `CKEN = 1`. -/
def Obligations.RxbShortFrameIsDiscarded : Prop :=
  ∀ s : State, s.rxEsc = false → s.params.cken = true → s.rxBuf.length < 4 →
    encode .rxbNEndShort = 0x3C0#11 ∧
    exec .rxbNEndShort s = .next { s with
      rxBuf := [], rxEsc := false, rxAcc := 0, rxAck := false, evt := s.evt ++ [.rxDrop .truncatedTrailer] } ∧
    exec (.rxb 0xC0#8) s = exec .rxbNEndShort s

/-- R82: a frame boundary where the checksum test fails. The received checksum is written out from the last four bytes,
the expected one from the accumulator, modulo 2^32. -/
def Obligations.RxbChecksumMismatchIsDiscarded : Prop :=
  ∀ (s : State) (P : List Byte) (t0 t1 t2 t3 : Byte),
    s.rxEsc = false → s.params.cken = true → s.rxBuf = P ++ [t0, t1, t2, t3] →
    t0.toNat + t1.toNat * 2 ^ 8 + t2.toNat * 2 ^ 16 + t3.toNat * 2 ^ 24 ≠
      (s.rxAcc.toNat + 2 ^ 32 - (t0.toNat + t1.toNat + t2.toNat + t3.toNat + 4)) % 2 ^ 32 →
    encode .rxbNEndMismatch = 0x3C0#11 ∧
    exec .rxbNEndMismatch s = .next { s with
      rxBuf := [], rxEsc := false, rxAcc := 0, rxAck := false, evt := s.evt ++ [.rxDrop .checksumMismatch] } ∧
    exec (.rxb 0xC0#8) s = exec .rxbNEndMismatch s

/-- R83, R85: a frame boundary where the checksum test passes. -/
def Obligations.RxbChecksumMatchDeliversThePayload : Prop :=
  ∀ (s : State) (P : List Byte) (t0 t1 t2 t3 : Byte),
    s.rxEsc = false → s.params.cken = true → s.rxBuf = P ++ [t0, t1, t2, t3] →
    t0.toNat + t1.toNat * 2 ^ 8 + t2.toNat * 2 ^ 16 + t3.toNat * 2 ^ 24 =
      (s.rxAcc.toNat + 2 ^ 32 - (t0.toNat + t1.toNat + t2.toNat + t3.toNat + 4)) % 2 ^ 32 →
    encode .rxbNEndMatch = 0x3C0#11 ∧
    exec .rxbNEndMatch s = .next { s with
      rxBuf := [], rxEsc := false, rxAcc := 0, rxAck := false, pq := s.pq ++ [P], evt := s.evt ++ [.pktEvt] } ∧
    exec (.rxb 0xC0#8) s = exec .rxbNEndMatch s

/-- R84, R85: a frame boundary with `CKEN = 0`. -/
def Obligations.RxbWithoutChecksumDeliversTheBuffer : Prop :=
  ∀ s : State, s.rxEsc = false → s.params.cken = false →
    encode .rxbNEndNock = 0x3C0#11 ∧
    exec .rxbNEndNock s = .next { s with
      rxBuf := [], rxEsc := false, rxAcc := 0, rxAck := false, pq := s.pq ++ [s.rxBuf],
      evt := s.evt ++ [.pktEvt] } ∧
    exec (.rxb 0xC0#8) s = exec .rxbNEndNock s

/-- R86: ordinary data. -/
def Obligations.RxbDataIsAppended : Prop :=
  ∀ (b : Byte) (s : State), s.rxEsc = false → b ≠ 0xDB#8 → b ≠ 0xC0#8 →
    encode (.rxbNData b) = BitVec.ofNat 11 (0x300 + b.toNat) ∧
    exec (.rxbNData b) s = .next { s with
      rxBuf := s.rxBuf ++ [b], rxAcc := BitVec.ofNat 32 (s.rxAcc.toNat + b.toNat + 1) } ∧
    exec (.rxb b) s = exec (.rxbNData b) s

/-- R88 (derived in the spec): after `END` received outside an escape the decoder is clean, whatever it held; with
`DISCARD`, after any `END`. -/
def Obligations.EndLeavesTheDecoderClean : Prop :=
  ∀ s t : State, (s.rxEsc = false ∨ s.params.escEndPolicy = .discard) → exec (.rxb 0xC0#8) s = .next t →
    t.rxBuf = [] ∧ t.rxEsc = false ∧ t.rxAck = false ∧ t.rxAcc = 0

/-- 60_exceptions.md section 2 (the table of discard causes) and section 3: an `RXB` step reports a discard cause exactly
under that cause's condition. -/
def Obligations.DiscardCausesHaveExactlyTheirConditions : Prop :=
  ∀ (b : Byte) (s t : State), exec (.rxb b) s = .next t →
    (t.evt = s.evt ++ [.rxDrop .truncatedTrailer] ↔
      b = 0xC0#8 ∧ s.rxEsc = false ∧ s.params.cken = true ∧ s.rxBuf.length < 4) ∧
    (t.evt = s.evt ++ [.rxDrop .checksumMismatch] ↔
      b = 0xC0#8 ∧ s.rxEsc = false ∧ s.params.cken = true ∧ 4 ≤ s.rxBuf.length ∧ receivedCks s ≠ expectedCks s) ∧
    (t.evt = s.evt ++ [.rxDrop .badEscape] ↔
      s.rxEsc = true ∧ b ≠ 0xDC#8 ∧ b ≠ 0xDD#8 ∧ (b = 0xC0#8 → s.params.escEndPolicy = .discard))

/-- R100: a discard performs `reset_decoder()`, leaves its diagnostic, and nothing else. -/
def Obligations.DiscardChangesTheDecoderOnly : Prop :=
  ∀ (i : Instr) (s t : State) (c : DropCause), exec i s = .next t → t.evt = s.evt ++ [.rxDrop c] →
    t = { s with rxBuf := [], rxEsc := false, rxAcc := 0, rxAck := false, evt := s.evt ++ [.rxDrop c] }

/-- 60_exceptions.md sections 2 and 4 (the form of the notification is the spec's own decision D10): a step either emits
nothing and enqueues nothing, or enqueues one packet and emits one `PKT_EVT`, or emits one `RX_DROP` and leaves the queue
alone. -/
def Obligations.PacketEventIffPacketEnqueued : Prop :=
  ∀ (i : Instr) (s t : State), exec i s = .next t →
    (t.evt = s.evt ∧ ¬ ∃ p, t.pq = s.pq ++ [p]) ∨
    (t.evt = s.evt ++ [.pktEvt] ∧ ∃ p, t.pq = s.pq ++ [p]) ∨
    (∃ c, t.evt = s.evt ++ [.rxDrop c] ∧ t.pq = s.pq)

/-- R44 (derived in the spec): fed `esc*(P)` with no escape pending, the decoder buffers and accumulates exactly `P`. -/
def Obligations.FeedingEscapedBytesBuffersThePayload : Prop :=
  ∀ (P : List Byte) (s : State), s.rxEsc = false →
    run (feed (escSeq P)) s = .next { s with rxBuf := s.rxBuf ++ P, rxAcc := s.rxAcc + cks P }

/-- R89 (derived in the spec): a clean decoder fed the wire form of `P`, for its own `CKEN`, delivers exactly `P`, at the
final `0xC0` and not before, and ends clean. With `CKEN = 1`, no byte of the trailer may be `0xC0` or `0xDB`. -/
def Obligations.WireFormRoundTrips : Prop :=
  ∀ (P : List Byte) (s : State), s.Clean → (s.params.cken = true → NoReserved (le32 (cks P))) →
    run (feed (wire s.params.cken P)) s = .next { s with pq := s.pq ++ [P], evt := s.evt ++ [.pktEvt] } ∧
    ∃ u, run (feed (wire s.params.cken P).dropLast) s = .next u ∧ u.pq = s.pq ∧ u.evt = s.evt

/-- R115 (derived in the spec): with `CKEN = 1`, if a byte of the trailer is `0xC0` or `0xDB`, the wire form of `P` never
delivers `P`: every packet it does deliver is shorter. Under both policies. -/
def Obligations.ReservedTrailerByteNeverDeliversThePayload : Prop :=
  ∀ (P : List Byte) (s : State), s.Clean → s.params.cken = true → ¬ NoReserved (le32 (cks P)) →
    ∃ t E, run (feed (wire true P)) s = .next t ∧ t.pq = s.pq ++ E ∧ ∀ q ∈ E, q.length < P.length

/-- R91 (derived in the spec), for payload bytes: a frame in which one logical byte has another value than the one the
trailer was computed from is discarded as a mismatch. -/
def Obligations.OneChangedPayloadByteIsDetected : Prop :=
  ∀ (A B : List Byte) (x y : Byte) (s : State), s.Clean → s.params.cken = true → x ≠ y →
    NoReserved (le32 (cks (A ++ x :: B))) →
    run (feed (escSeq (A ++ y :: B) ++ le32 (cks (A ++ x :: B)) ++ [0xC0#8])) s =
      .next { s with evt := s.evt ++ [.rxDrop .checksumMismatch] }

/-- R91 (derived in the spec), for trailer bytes: a frame whose trailer is not the checksum of its payload is discarded
as a mismatch. -/
def Obligations.WrongTrailerIsDetected : Prop :=
  ∀ (P : List Byte) (v : Word32) (s : State), s.Clean → s.params.cken = true → v ≠ cks P → NoReserved (le32 v) →
    run (feed (escSeq P ++ le32 v ++ [0xC0#8])) s = .next { s with evt := s.evt ++ [.rxDrop .checksumMismatch] }

/-- R118 (derived in the spec): mismatched checksum modes. A `CKEN = 0` receiver delivers a `CKEN = 1` frame as the
payload followed by its trailer; a `CKEN = 1` receiver discards a short `CKEN = 0` frame and takes the last four bytes of
a longer one for a checksum. -/
def Obligations.MismatchedChecksumModes : Prop :=
  ∀ (P : List Byte) (s : State), s.Clean →
    (s.params.cken = false → NoReserved (le32 (cks P)) →
      run (feed (wire true P)) s =
        .next { s with pq := s.pq ++ [P ++ le32 (cks P)], evt := s.evt ++ [.pktEvt] }) ∧
    (s.params.cken = true → P.length < 4 →
      run (feed (wire false P)) s = .next { s with evt := s.evt ++ [.rxDrop .truncatedTrailer] }) ∧
    (∀ A T, s.params.cken = true → P = A ++ T → T.length = 4 → unle32 T = cks A →
      run (feed (wire false P)) s = .next { s with pq := s.pq ++ [A], evt := s.evt ++ [.pktEvt] }) ∧
    (∀ A T, s.params.cken = true → P = A ++ T → T.length = 4 → unle32 T ≠ cks A →
      run (feed (wire false P)) s = .next { s with evt := s.evt ++ [.rxDrop .checksumMismatch] })

/-- R116: until an `END` arrives no packet is delivered and no `PKT_EVT` is given, whatever else is fed. -/
def Obligations.NothingIsDeliveredWithoutEnd : Prop :=
  ∀ (W : List Byte) (s : State), 0xC0#8 ∉ W →
    ∃ t E, run (feed W) s = .next t ∧ t.pq = s.pq ∧ t.evt = s.evt ++ E ∧ Event.pktEvt ∉ E

/-- R121 (derived in the spec), for `CKEN = 0`: under `FLAG_ONLY` an `END` swallowed by a pending escape merges the two
frames into one packet; under `DISCARD` it drops the damaged frame and the next is delivered. -/
def Obligations.SwallowedEndMergesFramesUnderFlagOnly : Prop :=
  ∀ (P Q : List Byte) (s : State), s.Clean → s.params.cken = false →
    (s.params.escEndPolicy = .flagOnly →
      run (feed (escSeq P ++ [0xDB#8, 0xC0#8] ++ escSeq Q ++ [0xC0#8])) s =
        .next { s with pq := s.pq ++ [P ++ Q], evt := s.evt ++ [.pktEvt] }) ∧
    (s.params.escEndPolicy = .discard →
      run (feed (escSeq P ++ [0xDB#8, 0xC0#8] ++ escSeq Q ++ [0xC0#8])) s =
        .next { s with pq := s.pq ++ [Q], evt := s.evt ++ [.rxDrop .badEscape, .pktEvt] })

/-- R90: zero-length packets are delivered, with `CKEN = 0` for every `END` in the clean state, with `CKEN = 1` for the
frame `00 00 00 00 C0`, which is what `FRAME []` emits. -/
def Obligations.ZeroLengthPacketsAreDelivered : Prop :=
  ∀ s : State, s.Clean →
    (s.params.cken = false →
      exec (.rxb 0xC0#8) s = .next { s with pq := s.pq ++ [[]], evt := s.evt ++ [.pktEvt] }) ∧
    (s.params.cken = true →
      run (feed [0x00#8, 0x00#8, 0x00#8, 0x00#8, 0xC0#8]) s =
        .next { s with pq := s.pq ++ [[]], evt := s.evt ++ [.pktEvt] } ∧
      (s.txAcc = 0 → run (frame []) s = .next { s with txw := s.txw ++ [0x00#8, 0x00#8, 0x00#8, 0x00#8, 0xC0#8] }))

/-! ### The queue -/

/-- `DEQ` with `PQ` not empty returns the head and removes it, the effect that R93 gives. Two clauses are the model's: the
row `DEQ.EMPTY` has the effect of its request word here too (DEDUCED, notes/assumptions/5.md), and the word `encode` gives
has the ignored `data` at zero (DESIGN CHOICE, notes/assumptions/9.md). The list of results is the model's as well
(notes/assumptions/4.md). -/
def Obligations.DeqReturnsAndRemovesTheHead : Prop :=
  ∀ (p : Packet) (rest : List Packet) (s : State), s.pq = p :: rest →
    encode .deqHead = 0x400#11 ∧
    exec .deqHead s = .next { s with pq := rest, results := s.results ++ [.packet p] } ∧
    exec .deqEmpty s = exec .deqHead s

/-- R94 (`EMPTY` as a result of its own is the spec's own decision D13): `DEQ` with `PQ` empty returns `EMPTY`, which is
no packet, and changes nothing. Two clauses are the model's: the row `DEQ.HEAD` has the effect of its request word here
too (DEDUCED, notes/assumptions/5.md), and the word `encode` gives has the ignored `data` at zero (DESIGN CHOICE,
notes/assumptions/9.md). The list of results is the model's as well (notes/assumptions/4.md). -/
def Obligations.DeqOfEmptyQueueReturnsEmpty : Prop :=
  ∀ s : State, s.pq = [] →
    encode .deqEmpty = 0x400#11 ∧
    exec .deqEmpty s = .next { s with results := s.results ++ [.empty] } ∧
    exec .deqHead s = exec .deqEmpty s ∧
    ∀ p, Result.empty ≠ .packet p

/-- R95 (an unbounded count is the spec's own decision D18): `QCNT` returns the number of packets, and changes
nothing. The word `encode` gives has the ignored `data` at zero (DESIGN CHOICE, notes/assumptions/9.md), and the list of
results is the model's (notes/assumptions/4.md). -/
def Obligations.QcntReturnsTheNumberOfPackets : Prop :=
  ∀ s : State, encode .qcnt = 0x500#11 ∧
    exec .qcnt s = .next { s with results := s.results ++ [.count s.pq.length] }

/-- R96 (derived in the spec): without a `RESET`, the packets returned, followed by what is still in `PQ`, are what was in
`PQ` followed by the packets enqueued: none lost, none returned twice, in order. -/
def Obligations.QueueIsFirstInFirstOut : Prop :=
  ∀ (is : List Instr) (s t : State), (∀ i ∈ is, i ≠ .reset) → run is s = .next t →
    ∃ R, t.results = s.results ++ R ∧ packetsOf R ++ t.pq = s.pq ++ enqueuedIn is s

/-- R97: `RXB` does not depend on the queue: with any other contents of `PQ`, the same bytes append the same packets and
leave everything else the same. -/
def Obligations.DecoderDoesNotDependOnTheQueue : Prop :=
  ∀ (W : List Byte) (s t : State) (q : List Packet), run (feed W) s = .next t →
    ∃ E, t.pq = s.pq ++ E ∧ run (feed W) { s with pq := q } = .next { t with pq := q ++ E }

/-! ### Reset -/

/-- R111 (what it covers is the spec's own decision D14): `RESET` sets every element of the block to its reset value,
emits nothing and takes the parameters supplied with it; with none listed it keeps the running ones (the model's
convention, notes/assumptions/3.md). The word `encode` gives has the ignored `data` at zero (DESIGN CHOICE,
notes/assumptions/9.md). -/
def Obligations.ResetClearsEveryElement : Prop :=
  ∀ s : State, encode .reset = 0x700#11 ∧
    (∀ p rest, s.supplies = p :: rest →
      exec .reset s = .next { s with
        txAcc := 0, rxBuf := [], rxEsc := false, rxAcc := 0, rxAck := false, pq := [], params := p, supplies := rest }) ∧
    (s.supplies = [] →
      exec .reset s = .next { s with
        txAcc := 0, rxBuf := [], rxEsc := false, rxAcc := 0, rxAck := false, pq := [] })

/-- R27 (the spec's own decision D4): the state after reset, for every value of the parameters, and `State.reset` is that
state for some value of them. That the model's own lists are empty after reset is the model's choice: the results
(notes/assumptions/4.md), the requests presented (notes/assumptions/2.md) and the parameters supplied
(notes/assumptions/3.md), all DESIGN CHOICE, and the two traces (DEDUCED, notes/assumptions/11.md). -/
def Obligations.ResetStateHasTheResetValues : Prop :=
  (∀ p : Params,
    (State.resetWith p).txAcc = 0 ∧ (State.resetWith p).rxBuf = [] ∧ (State.resetWith p).rxEsc = false ∧
    (State.resetWith p).rxAcc = 0 ∧ (State.resetWith p).rxAck = false ∧ (State.resetWith p).pq = [] ∧
    (State.resetWith p).params = p ∧ (State.resetWith p).txw = [] ∧ (State.resetWith p).evt = [] ∧
    (State.resetWith p).results = [] ∧ (State.resetWith p).pending = [] ∧ (State.resetWith p).supplies = []) ∧
  ∃ p : Params, State.reset = State.resetWith p

/-! ### Frames, ownership and whole-machine rules -/

/-- R26: who writes what. An encoder operation writes `TX_ACC` (and `TXW`); `RXB` writes the decoder (and `EVT`) and at
most appends to `PQ`; `DEQ` at most removes the head of `PQ` (and returns a result); `QCNT` returns a result only.
Everything else is unchanged. -/
def Obligations.EachChannelWritesOnlyItsOwnState : Prop :=
  ∀ (i : Instr) (s t : State), exec i s = .next t →
    (i.channel = .tx → t = { s with txAcc := t.txAcc, txw := t.txw }) ∧
    (i.channel = .rx →
      t = { s with rxBuf := t.rxBuf, rxEsc := t.rxEsc, rxAcc := t.rxAcc, rxAck := t.rxAck, pq := t.pq, evt := t.evt } ∧
      (t.pq = s.pq ∨ ∃ p, t.pq = s.pq ++ [p])) ∧
    (i.channel = .q →
      t = { s with pq := t.pq, results := t.results } ∧ (t.pq = s.pq ∨ t.pq = s.pq.tail)) ∧
    (i = .qcnt → t.pq = s.pq)

/-- The parameters are never written by an operation other than `RESET` (R20). The other clauses are about the model's
own lists: no operation touches the requests presented (DESIGN CHOICE, notes/assumptions/2.md), none but `RESET` touches
the parameters supplied (DESIGN CHOICE, notes/assumptions/3.md), and no operation, `RESET` included, takes back what a
trace (R21; DEDUCED, notes/assumptions/11.md) or the list of results (DESIGN CHOICE, notes/assumptions/4.md) holds. -/
def Obligations.ParametersAndTracesAreKept : Prop :=
  ∀ (i : Instr) (s t : State), exec i s = .next t →
    (i ≠ .reset → t.params = s.params ∧ t.supplies = s.supplies) ∧ t.pending = s.pending ∧
    (∃ W, t.txw = s.txw ++ W) ∧ (∃ E, t.evt = s.evt ++ E) ∧ (∃ R, t.results = s.results ++ R)

/-- R35 (derived in the spec; the ordering is the spec's own decision D16): every interleaving of the encoder's operations
with those of the other channels leads to one state and one set of outputs. -/
def Obligations.EveryInterleavingOfTheEncoderGivesOneResult : Prop :=
  ∀ (xs ys zs : List Instr) (s : State), (∀ x ∈ xs, x.channel = .tx) →
    (∀ y ∈ ys, y.channel = .rx ∨ y.channel = .q) → Interleaving xs ys zs →
    ∃ t, run zs s = .next t ∧ run (xs ++ ys) s = .next t

/-- R18 (hidden state; U9): no operation reads `RX_ACK`. Along every run, another value of it changes nothing but
itself. -/
def Obligations.PendingAcknowledgmentIsNeverRead : Prop :=
  ∀ (is : List Instr) (s t : State) (a : Bool), run is s = .next t →
    ∃ a', run is { s with rxAck := a } = .next { t with rxAck := a' }

/-- The invariant (I1 of R22, and `RX_ACK = 0` under `DISCARD`, R77) holds after reset, for every value of the
parameters. -/
def Obligations.InvariantHoldsAfterReset : Prop :=
  ∀ p : Params, (State.resetWith p).Inv

/-- Every step keeps the invariant (I1 of R22, derived in the spec; `RX_ACK = 0` under `DISCARD`, R77). -/
def Obligations.EveryStepKeepsTheInvariant : Prop :=
  ∀ s t : State, s.Inv → step s = .next t → t.Inv

/-! ### Arithmetic and wire format -/

/-- R43: the escape substitution, its length, and that its output holds no `0xC0` and `0xDB` only as the first byte of a
pair. -/
def Obligations.EscapeSubstitution : Prop :=
  esc 0xC0#8 = [0xDB#8, 0xDC#8] ∧ esc 0xDB#8 = [0xDB#8, 0xDD#8] ∧ (∀ b : Byte, b ≠ 0xC0#8 → b ≠ 0xDB#8 → esc b = [b]) ∧
  (∀ P : List Byte, escSeq P = (P.map esc).flatten ∧
    (escSeq P).length = P.length + P.countP (fun b => b == 0xC0#8 || b == 0xDB#8) ∧
    0xC0#8 ∉ escSeq P ∧
    ∀ k, (escSeq P)[k]? = some 0xDB#8 → (escSeq P)[k + 1]? = some 0xDC#8 ∨ (escSeq P)[k + 1]? = some 0xDD#8)

/-- R45, R46: the checksum is the sum of the bytes and the length, modulo 2^32; it is incremental and (derived in the
spec) insensitive to order. -/
def Obligations.ChecksumLaws : Prop :=
  cks [] = 0 ∧
  (∀ (S : List Byte) (b : Byte), cks (S ++ [b]) = add32 (cks S) (BitVec.ofNat 32 (b.toNat + 1))) ∧
  (∀ S : List Byte, (cks S).toNat = ((S.map BitVec.toNat).sum + S.length) % 2 ^ 32) ∧
  (∀ S T : List Byte, S.Perm T → cks S = cks T)

/-- R48: trailer assembly, byte by byte; that the two directions are inverse; that the encoder's trailer is
`le32(TX_ACC)`; and that the decoder reads the last four buffered bytes, in buffer order, with `unle32`. -/
def Obligations.TrailerAssembly : Prop :=
  (∀ v : Word32, le32 v = [BitVec.ofNat 8 v.toNat, BitVec.ofNat 8 (v.toNat / 2 ^ 8), BitVec.ofNat 8 (v.toNat / 2 ^ 16),
    BitVec.ofNat 8 (v.toNat / 2 ^ 24)]) ∧
  (∀ t0 t1 t2 t3 : Byte, (unle32 [t0, t1, t2, t3]).toNat =
    t0.toNat + t1.toNat * 2 ^ 8 + t2.toNat * 2 ^ 16 + t3.toNat * 2 ^ 24) ∧
  (∀ v : Word32, unle32 (le32 v) = v) ∧
  (∀ t : List Byte, t.length = 4 → le32 (unle32 t) = t) ∧
  (∀ s : State, s.params.cken = true → ∃ t, exec .txendCk1 s = .next t ∧ t.txw = s.txw ++ le32 s.txAcc ++ [0xC0#8]) ∧
  (∀ (s : State) (P t : List Byte), s.rxBuf = P ++ t → t.length = 4 → receivedCks s = unle32 t)
end

