-- ==== Sys2Proof/Laws/Decode.lean ====
section
/-! SUPPORT. The two fields of a request word, when a row of the table fits a word, and what each group of rows gives a
word, written as the case analysis the rows amount to: one spec lemma per group. -/

namespace Sys2Proof

theorem reqOp_append (o : BitVec 3) (d : Byte) : reqOp (o ++ d : BitVec (3 + 8)) = o := by
  apply BitVec.eq_of_getLsbD_eq
  intro i hi
  rw [reqOp, BitVec.getLsbD_extractLsb', BitVec.getLsbD_append]
  simp [hi]

theorem reqData_append (o : BitVec 3) (d : Byte) : reqData (o ++ d : BitVec (3 + 8)) = d := by
  apply BitVec.eq_of_getLsbD_eq
  intro i hi
  rw [reqData, BitVec.getLsbD_extractLsb', BitVec.getLsbD_append]
  simp [hi]

/-- A request word is its two fields. -/
theorem req_eta (w : Req) : w = (reqOp w ++ reqData w : BitVec (3 + 8)) := by
  revert w; decide

theorem req_append_inj (o o' : BitVec 3) (b b' : Byte) :
    ((o ++ b : BitVec (3 + 8)) = (o' ++ b' : BitVec (3 + 8))) ↔ (o = o' ∧ b = b') := by
  constructor
  · intro h
    exact ⟨by rw [← reqOp_append o b, h, reqOp_append], by rw [← reqData_append o b, h, reqData_append]⟩
  · rintro ⟨rfl, rfl⟩; rfl

theorem opMask_append (o : BitVec 3) (b : Byte) :
    ((o ++ b : BitVec (3 + 8)) &&& 0x700#11) = (o ++ 0#8 : BitVec (3 + 8)) := by
  revert o b; decide

theorem fullMask_and (w : Req) : (w &&& 0x7FF#11) = w := by
  revert w; decide

/-- A row with mask `0x700` fits the words of one operation number. -/
theorem opMask_fits (o k : BitVec 3) (b : Byte) :
    (((o ++ b : BitVec (3 + 8)) &&& 0x700#11) == (k ++ 0#8 : BitVec (3 + 8))) = decide (o = k) := by
  rw [opMask_append, Bool.eq_iff_iff]; simp [req_append_inj]

/-- A row with mask `0x7FF` fits one word. -/
theorem fullMask_fits (o : BitVec 3) (b d : Byte) :
    (((o ++ b : BitVec (3 + 8)) &&& 0x7FF#11) == (o ++ d : BitVec (3 + 8))) = decide (b = d) := by
  rw [fullMask_and, Bool.eq_iff_iff]; simp [req_append_inj]

/-- What the `OP` rows give a word. -/
theorem decodeInGroup_op (c : Ctx) (o : BitVec 3) (b : Byte) :
    decodeInGroup .op c (o ++ b : BitVec (3 + 8)) =
      if o = 1#3 then some (.txb b)
      else if o = 2#3 then some (if c.cken then .txendCk1 else .txendCk0)
      else if o = 3#3 then some (.rxb b)
      else if o = 4#3 then some (if c.pqEmpty then .deqEmpty else .deqHead)
      else if o = 5#3 then some .qcnt
      else if o = 7#3 then some .reset
      else none := by
  have e1 : (((o ++ b : BitVec (3 + 8)) &&& 0x700#11) == 0x100#11) = decide (o = 1#3) := opMask_fits o 1#3 b
  have e2 : (((o ++ b : BitVec (3 + 8)) &&& 0x700#11) == 0x200#11) = decide (o = 2#3) := opMask_fits o 2#3 b
  have e3 : (((o ++ b : BitVec (3 + 8)) &&& 0x700#11) == 0x300#11) = decide (o = 3#3) := opMask_fits o 3#3 b
  have e4 : (((o ++ b : BitVec (3 + 8)) &&& 0x700#11) == 0x400#11) = decide (o = 4#3) := opMask_fits o 4#3 b
  have e5 : (((o ++ b : BitVec (3 + 8)) &&& 0x700#11) == 0x500#11) = decide (o = 5#3) := opMask_fits o 5#3 b
  have e7 : (((o ++ b : BitVec (3 + 8)) &&& 0x700#11) == 0x700#11) = decide (o = 7#3) := opMask_fits o 7#3 b
  simp only [decodeInGroup, reqData_append, groupRows, opRows, List.find?_cons, List.find?_nil, rowFits,
    BitVec.ofNat_eq_ofNat, e1, e2, e3, e4, e5, e7]
  clear e1 e2 e3 e4 e5 e7
  by_cases h1 : o = 1#3
  · subst h1; rfl
  by_cases h2 : o = 2#3
  · subst h2; cases c.cken <;> rfl
  by_cases h3 : o = 3#3
  · subst h3; rfl
  by_cases h4 : o = 4#3
  · subst h4; cases c.pqEmpty <;> rfl
  by_cases h5 : o = 5#3
  · subst h5; rfl
  by_cases h7 : o = 7#3
  · subst h7; rfl
  simp only [h1, h2, h3, h4, h5, h7, decide_false, Bool.false_and, if_false, Option.map_none]

/-- What the `TXB_CASE` rows give a `TXB` word. -/
theorem decodeInGroup_txb (c : Ctx) (b : Byte) :
    decodeInGroup .txbCase c (1#3 ++ b : BitVec (3 + 8)) =
      some (if b = END then .txbEnd else if b = ESC then .txbEsc else .txbLit b) := by
  have e1 : (((1#3 ++ b : BitVec (3 + 8)) &&& 0x7FF#11) == 0x1C0#11) = decide (b = END) := fullMask_fits 1#3 b END
  have e2 : (((1#3 ++ b : BitVec (3 + 8)) &&& 0x7FF#11) == 0x1DB#11) = decide (b = ESC) := fullMask_fits 1#3 b ESC
  have e3 : (((1#3 ++ b : BitVec (3 + 8)) &&& 0x700#11) == 0x100#11) = true := opMask_fits 1#3 1#3 b
  simp only [decodeInGroup, reqData_append, groupRows, txbRows, List.find?_cons, List.find?_nil, rowFits,
    BitVec.ofNat_eq_ofNat, e1, e2, e3]
  clear e1 e2 e3
  by_cases h1 : b = END
  · subst h1; rfl
  by_cases h2 : b = ESC
  · subst h2; rfl
  simp only [h1, h2, decide_false, Bool.false_and, Bool.true_and, if_false, Option.map_some]

/-- What the `RXB_CASE` rows give an `RXB` word. -/
theorem decodeInGroup_rxb (c : Ctx) (b : Byte) :
    decodeInGroup .rxbCase c (3#3 ++ b : BitVec (3 + 8)) =
      some (if c.rxEsc then
          if b = ESC_END then .rxbEEscEnd
          else if b = ESC_ESC then .rxbEEscEsc
          else if b = END then if c.policy = .flagOnly then .rxbEEndFlag else .rxbEEndDiscard
          else .rxbEOther b
        else if b = ESC then .rxbNEsc
        else if b = END then
          if c.cken then if c.bufShort then .rxbNEndShort else if c.ckPass then .rxbNEndMatch else .rxbNEndMismatch
          else .rxbNEndNock
        else .rxbNData b) := by
  have e1 : (((3#3 ++ b : BitVec (3 + 8)) &&& 0x7FF#11) == 0x3DC#11) = decide (b = ESC_END) :=
    fullMask_fits 3#3 b ESC_END
  have e2 : (((3#3 ++ b : BitVec (3 + 8)) &&& 0x7FF#11) == 0x3DD#11) = decide (b = ESC_ESC) :=
    fullMask_fits 3#3 b ESC_ESC
  have e3 : (((3#3 ++ b : BitVec (3 + 8)) &&& 0x7FF#11) == 0x3C0#11) = decide (b = END) := fullMask_fits 3#3 b END
  have e4 : (((3#3 ++ b : BitVec (3 + 8)) &&& 0x7FF#11) == 0x3DB#11) = decide (b = ESC) := fullMask_fits 3#3 b ESC
  have e5 : (((3#3 ++ b : BitVec (3 + 8)) &&& 0x700#11) == 0x300#11) = true := opMask_fits 3#3 3#3 b
  simp only [decodeInGroup, reqData_append, groupRows, rxbRows, List.find?_cons, List.find?_nil, rowFits,
    BitVec.ofNat_eq_ofNat, e1, e2, e3, e4, e5]
  clear e1 e2 e3 e4 e5
  rcases c with ⟨ck, pol, re, pe, bs, cp⟩
  cases re
  · by_cases h1 : b = ESC
    · subst h1; rfl
    by_cases h2 : b = END
    · subst h2; cases ck <;> cases bs <;> cases cp <;> rfl
    · simp [h1, h2]
  · by_cases h1 : b = ESC_END
    · subst h1; rfl
    by_cases h2 : b = ESC_ESC
    · subst h2; rfl
    by_cases h3 : b = END
    · subst h3; cases pol <;> rfl
    · simp [h1, h2, h3]

/-- The decoder on a `TXB` word: the case row. -/
theorem decode_txb (c : Ctx) (b : Byte) :
    decode c (1#3 ++ b : BitVec (3 + 8)) = .ok (if b = END then .txbEnd else if b = ESC then .txbEsc else .txbLit b) := by
  have h : decodeInGroup .op c (1#3 ++ b : BitVec (3 + 8)) = some (.txb b) := decodeInGroup_op c 1#3 b
  simp only [decode, h, decodeInGroup_txb, Option.getD_some]

/-- The decoder on an `RXB` word: the case row. -/
theorem decode_rxb (c : Ctx) (b : Byte) :
    decode c (3#3 ++ b : BitVec (3 + 8)) =
      .ok ((decodeInGroup .rxbCase c (3#3 ++ b : BitVec (3 + 8))).getD (.rxb b)) := by
  have h : decodeInGroup .op c (3#3 ++ b : BitVec (3 + 8)) = some (.rxb b) := decodeInGroup_op c 3#3 b
  simp only [decode, h]

end Sys2Proof
end

