-- ==== Sys2Proof/Laws/Operands.lean ====
section
/-! SUPPORT. The small lemmas of the operand forms: the checksum over appended bytes, the escape substitution case by
case, and the split of a buffer that ends in a four-byte trailer. -/

namespace Sys2Proof.Machine

/-- The four reserved byte values are distinct (R42). -/
@[simp] theorem END_eq_ESC : (END = ESC) = False := by decide
@[simp] theorem ESC_eq_END : (ESC = END) = False := by decide
@[simp] theorem END_eq_ESC_END : (END = ESC_END) = False := by decide
@[simp] theorem END_eq_ESC_ESC : (END = ESC_ESC) = False := by decide
@[simp] theorem ESC_eq_ESC_END : (ESC = ESC_END) = False := by decide
@[simp] theorem ESC_eq_ESC_ESC : (ESC = ESC_ESC) = False := by decide
@[simp] theorem ESC_END_eq_END : (ESC_END = END) = False := by decide
@[simp] theorem ESC_END_eq_ESC : (ESC_END = ESC) = False := by decide
@[simp] theorem ESC_ESC_eq_END : (ESC_ESC = END) = False := by decide
@[simp] theorem ESC_ESC_eq_ESC : (ESC_ESC = ESC) = False := by decide
@[simp] theorem ESC_ESC_eq_ESC_END : (ESC_ESC = ESC_END) = False := by decide

theorem contrib_eq (b : Byte) : contrib b = BitVec.ofNat 32 (b.toNat + 1) := by
  apply BitVec.eq_of_toNat_eq
  simp [contrib, add32, zext32]

@[simp] theorem contribSum_nil : contribSum [] = 0 := rfl

@[simp] theorem contribSum_cons (b : Byte) (S : List Byte) : contribSum (b :: S) = b.toNat + 1 + contribSum S := rfl

theorem contribSum_append (S T : List Byte) : contribSum (S ++ T) = contribSum S + contribSum T := by
  simp [contribSum]

@[simp] theorem cks_nil : cks [] = 0 := rfl

theorem cks_append (S T : List Byte) : cks (S ++ T) = cks S + cks T := by
  rw [cks, contribSum_append, BitVec.ofNat_add]; rfl

theorem cks_singleton (b : Byte) : cks [b] = contrib b := by
  simp [cks, contrib_eq]

theorem cks_cons (b : Byte) (S : List Byte) : cks (b :: S) = contrib b + cks S := by
  rw [← List.singleton_append, cks_append, cks_singleton]

@[simp] theorem esc_end : esc END = [ESC, ESC_END] := rfl

@[simp] theorem esc_esc : esc ESC = [ESC, ESC_ESC] := rfl

theorem esc_literal {b : Byte} (h : b ≠ END) (h' : b ≠ ESC) : esc b = [b] := by
  simp only [esc, if_neg h, if_neg h']

@[simp] theorem escSeq_nil : escSeq [] = [] := rfl

@[simp] theorem escSeq_cons (b : Byte) (P : List Byte) : escSeq (b :: P) = esc b ++ escSeq P := rfl

theorem escSeq_append (P Q : List Byte) : escSeq (P ++ Q) = escSeq P ++ escSeq Q := by
  simp [escSeq]

@[simp] theorem le32_length (v : Word32) : (le32 v).length = 4 := rfl

theorem payloadPart_append {P t : List Byte} (h : t.length = 4) : payloadPart (P ++ t) = P := by
  simp [payloadPart, h]

theorem trailerPart_append {P t : List Byte} (h : t.length = 4) : trailerPart (P ++ t) = t := by
  simp [trailerPart, h]

end Sys2Proof.Machine
end

