-- ==== Sys2Proof/Laws/Flags.lean ====
section
/-! SUPPORT. The tests on a state, in the terms the rules use. -/

namespace Sys2Proof.Machine

theorem bufShort_iff (s : State) : bufShort s = true ↔ s.rxBuf.length < 4 := by
  simp [bufShort]

theorem ckPass_iff (s : State) : ckPass s = true ↔ receivedCks s = expectedCks s := by
  simp [ckPass]

/-- A buffer that ends in a four-byte trailer `t`: the received checksum is `unle32 t`, the expected one the accumulator
less the checksum contribution of `t`. -/
theorem receivedCks_of_append {s : State} {P t : List Byte} (h : s.rxBuf = P ++ t) (ht : t.length = 4) :
    receivedCks s = unle32 t := by
  rw [receivedCks, h, trailerPart_append ht]

theorem expectedCks_of_append {s : State} {P t : List Byte} (h : s.rxBuf = P ++ t) (ht : t.length = 4) :
    expectedCks s = sub32 s.rxAcc (cks t) := by
  rw [expectedCks, h, trailerPart_append ht, cks]

@[simp] theorem State.ctx_cken (s : State) : s.ctx.cken = s.params.cken := rfl
@[simp] theorem State.ctx_policy (s : State) : s.ctx.policy = s.params.escEndPolicy := rfl
@[simp] theorem State.ctx_rxEsc (s : State) : s.ctx.rxEsc = s.rxEsc := rfl
@[simp] theorem State.ctx_pqEmpty (s : State) : s.ctx.pqEmpty = s.pq.isEmpty := rfl
@[simp] theorem State.ctx_bufShort (s : State) : s.ctx.bufShort = Machine.bufShort s := rfl
@[simp] theorem State.ctx_ckPass (s : State) : s.ctx.ckPass = Machine.ckPass s := rfl

/-- `decodeTableWord` reads a word in the context that `State.reset` is in. -/
theorem State.reset_ctx : State.reset.ctx = ctxAfterReset := by decide

end Sys2Proof.Machine
end

