-- ==== Sys2Proof/Laws/State.lean ====
section
/-! SUPPORT. One lemma per field per update: what each shared operation leaves in each field of the state. -/

namespace Sys2Proof.Machine

@[simp] theorem State.setEsc_txAcc (v : Bool) (s : State) : (s.setEsc v).txAcc = s.txAcc := rfl
@[simp] theorem State.setEsc_rxBuf (v : Bool) (s : State) : (s.setEsc v).rxBuf = s.rxBuf := rfl
@[simp] theorem State.setEsc_rxEsc (v : Bool) (s : State) : (s.setEsc v).rxEsc = v := rfl
@[simp] theorem State.setEsc_rxAcc (v : Bool) (s : State) : (s.setEsc v).rxAcc = s.rxAcc := rfl
@[simp] theorem State.setEsc_rxAck (v : Bool) (s : State) : (s.setEsc v).rxAck = s.rxAck := rfl
@[simp] theorem State.setEsc_pq (v : Bool) (s : State) : (s.setEsc v).pq = s.pq := rfl
@[simp] theorem State.setEsc_params (v : Bool) (s : State) : (s.setEsc v).params = s.params := rfl
@[simp] theorem State.setEsc_txw (v : Bool) (s : State) : (s.setEsc v).txw = s.txw := rfl
@[simp] theorem State.setEsc_evt (v : Bool) (s : State) : (s.setEsc v).evt = s.evt := rfl
@[simp] theorem State.setEsc_results (v : Bool) (s : State) : (s.setEsc v).results = s.results := rfl
@[simp] theorem State.setEsc_pending (v : Bool) (s : State) : (s.setEsc v).pending = s.pending := rfl
@[simp] theorem State.setEsc_supplies (v : Bool) (s : State) : (s.setEsc v).supplies = s.supplies := rfl

@[simp] theorem State.setAck_txAcc (s : State) : s.setAck.txAcc = s.txAcc := rfl
@[simp] theorem State.setAck_rxBuf (s : State) : s.setAck.rxBuf = s.rxBuf := rfl
@[simp] theorem State.setAck_rxEsc (s : State) : s.setAck.rxEsc = s.rxEsc := rfl
@[simp] theorem State.setAck_rxAcc (s : State) : s.setAck.rxAcc = s.rxAcc := rfl
@[simp] theorem State.setAck_rxAck (s : State) : s.setAck.rxAck = true := rfl
@[simp] theorem State.setAck_pq (s : State) : s.setAck.pq = s.pq := rfl
@[simp] theorem State.setAck_params (s : State) : s.setAck.params = s.params := rfl
@[simp] theorem State.setAck_txw (s : State) : s.setAck.txw = s.txw := rfl
@[simp] theorem State.setAck_evt (s : State) : s.setAck.evt = s.evt := rfl
@[simp] theorem State.setAck_results (s : State) : s.setAck.results = s.results := rfl
@[simp] theorem State.setAck_pending (s : State) : s.setAck.pending = s.pending := rfl
@[simp] theorem State.setAck_supplies (s : State) : s.setAck.supplies = s.supplies := rfl

@[simp] theorem State.emit_txAcc (ws : List Byte) (s : State) : (s.emit ws).txAcc = s.txAcc := rfl
@[simp] theorem State.emit_rxBuf (ws : List Byte) (s : State) : (s.emit ws).rxBuf = s.rxBuf := rfl
@[simp] theorem State.emit_rxEsc (ws : List Byte) (s : State) : (s.emit ws).rxEsc = s.rxEsc := rfl
@[simp] theorem State.emit_rxAcc (ws : List Byte) (s : State) : (s.emit ws).rxAcc = s.rxAcc := rfl
@[simp] theorem State.emit_rxAck (ws : List Byte) (s : State) : (s.emit ws).rxAck = s.rxAck := rfl
@[simp] theorem State.emit_pq (ws : List Byte) (s : State) : (s.emit ws).pq = s.pq := rfl
@[simp] theorem State.emit_params (ws : List Byte) (s : State) : (s.emit ws).params = s.params := rfl
@[simp] theorem State.emit_txw (ws : List Byte) (s : State) : (s.emit ws).txw = s.txw ++ ws := rfl
@[simp] theorem State.emit_evt (ws : List Byte) (s : State) : (s.emit ws).evt = s.evt := rfl
@[simp] theorem State.emit_results (ws : List Byte) (s : State) : (s.emit ws).results = s.results := rfl
@[simp] theorem State.emit_pending (ws : List Byte) (s : State) : (s.emit ws).pending = s.pending := rfl
@[simp] theorem State.emit_supplies (ws : List Byte) (s : State) : (s.emit ws).supplies = s.supplies := rfl

@[simp] theorem State.accumulateTx_txAcc (b : Byte) (s : State) : (s.accumulateTx b).txAcc = add32 s.txAcc (contrib b) := rfl
@[simp] theorem State.accumulateTx_rxBuf (b : Byte) (s : State) : (s.accumulateTx b).rxBuf = s.rxBuf := rfl
@[simp] theorem State.accumulateTx_rxEsc (b : Byte) (s : State) : (s.accumulateTx b).rxEsc = s.rxEsc := rfl
@[simp] theorem State.accumulateTx_rxAcc (b : Byte) (s : State) : (s.accumulateTx b).rxAcc = s.rxAcc := rfl
@[simp] theorem State.accumulateTx_rxAck (b : Byte) (s : State) : (s.accumulateTx b).rxAck = s.rxAck := rfl
@[simp] theorem State.accumulateTx_pq (b : Byte) (s : State) : (s.accumulateTx b).pq = s.pq := rfl
@[simp] theorem State.accumulateTx_params (b : Byte) (s : State) : (s.accumulateTx b).params = s.params := rfl
@[simp] theorem State.accumulateTx_txw (b : Byte) (s : State) : (s.accumulateTx b).txw = s.txw := rfl
@[simp] theorem State.accumulateTx_evt (b : Byte) (s : State) : (s.accumulateTx b).evt = s.evt := rfl
@[simp] theorem State.accumulateTx_results (b : Byte) (s : State) : (s.accumulateTx b).results = s.results := rfl
@[simp] theorem State.accumulateTx_pending (b : Byte) (s : State) : (s.accumulateTx b).pending = s.pending := rfl
@[simp] theorem State.accumulateTx_supplies (b : Byte) (s : State) : (s.accumulateTx b).supplies = s.supplies := rfl

@[simp] theorem State.clearTx_txAcc (s : State) : s.clearTx.txAcc = 0 := rfl
@[simp] theorem State.clearTx_rxBuf (s : State) : s.clearTx.rxBuf = s.rxBuf := rfl
@[simp] theorem State.clearTx_rxEsc (s : State) : s.clearTx.rxEsc = s.rxEsc := rfl
@[simp] theorem State.clearTx_rxAcc (s : State) : s.clearTx.rxAcc = s.rxAcc := rfl
@[simp] theorem State.clearTx_rxAck (s : State) : s.clearTx.rxAck = s.rxAck := rfl
@[simp] theorem State.clearTx_pq (s : State) : s.clearTx.pq = s.pq := rfl
@[simp] theorem State.clearTx_params (s : State) : s.clearTx.params = s.params := rfl
@[simp] theorem State.clearTx_txw (s : State) : s.clearTx.txw = s.txw := rfl
@[simp] theorem State.clearTx_evt (s : State) : s.clearTx.evt = s.evt := rfl
@[simp] theorem State.clearTx_results (s : State) : s.clearTx.results = s.results := rfl
@[simp] theorem State.clearTx_pending (s : State) : s.clearTx.pending = s.pending := rfl
@[simp] theorem State.clearTx_supplies (s : State) : s.clearTx.supplies = s.supplies := rfl

@[simp] theorem State.append_txAcc (v : Byte) (s : State) : (s.append v).txAcc = s.txAcc := rfl
@[simp] theorem State.append_rxBuf (v : Byte) (s : State) : (s.append v).rxBuf = s.rxBuf ++ [v] := rfl
@[simp] theorem State.append_rxEsc (v : Byte) (s : State) : (s.append v).rxEsc = s.rxEsc := rfl
@[simp] theorem State.append_rxAcc (v : Byte) (s : State) : (s.append v).rxAcc = add32 s.rxAcc (contrib v) := rfl
@[simp] theorem State.append_rxAck (v : Byte) (s : State) : (s.append v).rxAck = s.rxAck := rfl
@[simp] theorem State.append_pq (v : Byte) (s : State) : (s.append v).pq = s.pq := rfl
@[simp] theorem State.append_params (v : Byte) (s : State) : (s.append v).params = s.params := rfl
@[simp] theorem State.append_txw (v : Byte) (s : State) : (s.append v).txw = s.txw := rfl
@[simp] theorem State.append_evt (v : Byte) (s : State) : (s.append v).evt = s.evt := rfl
@[simp] theorem State.append_results (v : Byte) (s : State) : (s.append v).results = s.results := rfl
@[simp] theorem State.append_pending (v : Byte) (s : State) : (s.append v).pending = s.pending := rfl
@[simp] theorem State.append_supplies (v : Byte) (s : State) : (s.append v).supplies = s.supplies := rfl

@[simp] theorem State.resetDecoder_txAcc (s : State) : s.resetDecoder.txAcc = s.txAcc := rfl
@[simp] theorem State.resetDecoder_rxBuf (s : State) : s.resetDecoder.rxBuf = [] := rfl
@[simp] theorem State.resetDecoder_rxEsc (s : State) : s.resetDecoder.rxEsc = false := rfl
@[simp] theorem State.resetDecoder_rxAcc (s : State) : s.resetDecoder.rxAcc = 0 := rfl
@[simp] theorem State.resetDecoder_rxAck (s : State) : s.resetDecoder.rxAck = false := rfl
@[simp] theorem State.resetDecoder_pq (s : State) : s.resetDecoder.pq = s.pq := rfl
@[simp] theorem State.resetDecoder_params (s : State) : s.resetDecoder.params = s.params := rfl
@[simp] theorem State.resetDecoder_txw (s : State) : s.resetDecoder.txw = s.txw := rfl
@[simp] theorem State.resetDecoder_evt (s : State) : s.resetDecoder.evt = s.evt := rfl
@[simp] theorem State.resetDecoder_results (s : State) : s.resetDecoder.results = s.results := rfl
@[simp] theorem State.resetDecoder_pending (s : State) : s.resetDecoder.pending = s.pending := rfl
@[simp] theorem State.resetDecoder_supplies (s : State) : s.resetDecoder.supplies = s.supplies := rfl

@[simp] theorem State.enqueue_txAcc (p : Packet) (s : State) : (s.enqueue p).txAcc = s.txAcc := rfl
@[simp] theorem State.enqueue_rxBuf (p : Packet) (s : State) : (s.enqueue p).rxBuf = s.rxBuf := rfl
@[simp] theorem State.enqueue_rxEsc (p : Packet) (s : State) : (s.enqueue p).rxEsc = s.rxEsc := rfl
@[simp] theorem State.enqueue_rxAcc (p : Packet) (s : State) : (s.enqueue p).rxAcc = s.rxAcc := rfl
@[simp] theorem State.enqueue_rxAck (p : Packet) (s : State) : (s.enqueue p).rxAck = s.rxAck := rfl
@[simp] theorem State.enqueue_pq (p : Packet) (s : State) : (s.enqueue p).pq = s.pq ++ [p] := rfl
@[simp] theorem State.enqueue_params (p : Packet) (s : State) : (s.enqueue p).params = s.params := rfl
@[simp] theorem State.enqueue_txw (p : Packet) (s : State) : (s.enqueue p).txw = s.txw := rfl
@[simp] theorem State.enqueue_evt (p : Packet) (s : State) : (s.enqueue p).evt = s.evt := rfl
@[simp] theorem State.enqueue_results (p : Packet) (s : State) : (s.enqueue p).results = s.results := rfl
@[simp] theorem State.enqueue_pending (p : Packet) (s : State) : (s.enqueue p).pending = s.pending := rfl
@[simp] theorem State.enqueue_supplies (p : Packet) (s : State) : (s.enqueue p).supplies = s.supplies := rfl

@[simp] theorem State.event_txAcc (e : Event) (s : State) : (s.event e).txAcc = s.txAcc := rfl
@[simp] theorem State.event_rxBuf (e : Event) (s : State) : (s.event e).rxBuf = s.rxBuf := rfl
@[simp] theorem State.event_rxEsc (e : Event) (s : State) : (s.event e).rxEsc = s.rxEsc := rfl
@[simp] theorem State.event_rxAcc (e : Event) (s : State) : (s.event e).rxAcc = s.rxAcc := rfl
@[simp] theorem State.event_rxAck (e : Event) (s : State) : (s.event e).rxAck = s.rxAck := rfl
@[simp] theorem State.event_pq (e : Event) (s : State) : (s.event e).pq = s.pq := rfl
@[simp] theorem State.event_params (e : Event) (s : State) : (s.event e).params = s.params := rfl
@[simp] theorem State.event_txw (e : Event) (s : State) : (s.event e).txw = s.txw := rfl
@[simp] theorem State.event_evt (e : Event) (s : State) : (s.event e).evt = s.evt ++ [e] := rfl
@[simp] theorem State.event_results (e : Event) (s : State) : (s.event e).results = s.results := rfl
@[simp] theorem State.event_pending (e : Event) (s : State) : (s.event e).pending = s.pending := rfl
@[simp] theorem State.event_supplies (e : Event) (s : State) : (s.event e).supplies = s.supplies := rfl

@[simp] theorem State.report_txAcc (r : Result) (s : State) : (s.report r).txAcc = s.txAcc := rfl
@[simp] theorem State.report_rxBuf (r : Result) (s : State) : (s.report r).rxBuf = s.rxBuf := rfl
@[simp] theorem State.report_rxEsc (r : Result) (s : State) : (s.report r).rxEsc = s.rxEsc := rfl
@[simp] theorem State.report_rxAcc (r : Result) (s : State) : (s.report r).rxAcc = s.rxAcc := rfl
@[simp] theorem State.report_rxAck (r : Result) (s : State) : (s.report r).rxAck = s.rxAck := rfl
@[simp] theorem State.report_pq (r : Result) (s : State) : (s.report r).pq = s.pq := rfl
@[simp] theorem State.report_params (r : Result) (s : State) : (s.report r).params = s.params := rfl
@[simp] theorem State.report_txw (r : Result) (s : State) : (s.report r).txw = s.txw := rfl
@[simp] theorem State.report_evt (r : Result) (s : State) : (s.report r).evt = s.evt := rfl
@[simp] theorem State.report_results (r : Result) (s : State) : (s.report r).results = s.results ++ [r] := rfl
@[simp] theorem State.report_pending (r : Result) (s : State) : (s.report r).pending = s.pending := rfl
@[simp] theorem State.report_supplies (r : Result) (s : State) : (s.report r).supplies = s.supplies := rfl

@[simp] theorem State.dropHead_txAcc (s : State) : s.dropHead.txAcc = s.txAcc := rfl
@[simp] theorem State.dropHead_rxBuf (s : State) : s.dropHead.rxBuf = s.rxBuf := rfl
@[simp] theorem State.dropHead_rxEsc (s : State) : s.dropHead.rxEsc = s.rxEsc := rfl
@[simp] theorem State.dropHead_rxAcc (s : State) : s.dropHead.rxAcc = s.rxAcc := rfl
@[simp] theorem State.dropHead_rxAck (s : State) : s.dropHead.rxAck = s.rxAck := rfl
@[simp] theorem State.dropHead_pq (s : State) : s.dropHead.pq = s.pq.tail := rfl
@[simp] theorem State.dropHead_params (s : State) : s.dropHead.params = s.params := rfl
@[simp] theorem State.dropHead_txw (s : State) : s.dropHead.txw = s.txw := rfl
@[simp] theorem State.dropHead_evt (s : State) : s.dropHead.evt = s.evt := rfl
@[simp] theorem State.dropHead_results (s : State) : s.dropHead.results = s.results := rfl
@[simp] theorem State.dropHead_pending (s : State) : s.dropHead.pending = s.pending := rfl
@[simp] theorem State.dropHead_supplies (s : State) : s.dropHead.supplies = s.supplies := rfl

@[simp] theorem State.clearQueue_txAcc (s : State) : s.clearQueue.txAcc = s.txAcc := rfl
@[simp] theorem State.clearQueue_rxBuf (s : State) : s.clearQueue.rxBuf = s.rxBuf := rfl
@[simp] theorem State.clearQueue_rxEsc (s : State) : s.clearQueue.rxEsc = s.rxEsc := rfl
@[simp] theorem State.clearQueue_rxAcc (s : State) : s.clearQueue.rxAcc = s.rxAcc := rfl
@[simp] theorem State.clearQueue_rxAck (s : State) : s.clearQueue.rxAck = s.rxAck := rfl
@[simp] theorem State.clearQueue_pq (s : State) : s.clearQueue.pq = [] := rfl
@[simp] theorem State.clearQueue_params (s : State) : s.clearQueue.params = s.params := rfl
@[simp] theorem State.clearQueue_txw (s : State) : s.clearQueue.txw = s.txw := rfl
@[simp] theorem State.clearQueue_evt (s : State) : s.clearQueue.evt = s.evt := rfl
@[simp] theorem State.clearQueue_results (s : State) : s.clearQueue.results = s.results := rfl
@[simp] theorem State.clearQueue_pending (s : State) : s.clearQueue.pending = s.pending := rfl
@[simp] theorem State.clearQueue_supplies (s : State) : s.clearQueue.supplies = s.supplies := rfl

@[simp] theorem State.takeSupply_txAcc (s : State) : s.takeSupply.txAcc = s.txAcc := rfl
@[simp] theorem State.takeSupply_rxBuf (s : State) : s.takeSupply.rxBuf = s.rxBuf := rfl
@[simp] theorem State.takeSupply_rxEsc (s : State) : s.takeSupply.rxEsc = s.rxEsc := rfl
@[simp] theorem State.takeSupply_rxAcc (s : State) : s.takeSupply.rxAcc = s.rxAcc := rfl
@[simp] theorem State.takeSupply_rxAck (s : State) : s.takeSupply.rxAck = s.rxAck := rfl
@[simp] theorem State.takeSupply_pq (s : State) : s.takeSupply.pq = s.pq := rfl
@[simp] theorem State.takeSupply_params (s : State) : s.takeSupply.params = s.supplies.headD s.params := rfl
@[simp] theorem State.takeSupply_txw (s : State) : s.takeSupply.txw = s.txw := rfl
@[simp] theorem State.takeSupply_evt (s : State) : s.takeSupply.evt = s.evt := rfl
@[simp] theorem State.takeSupply_results (s : State) : s.takeSupply.results = s.results := rfl
@[simp] theorem State.takeSupply_pending (s : State) : s.takeSupply.pending = s.pending := rfl
@[simp] theorem State.takeSupply_supplies (s : State) : s.takeSupply.supplies = s.supplies.tail := rfl

end Sys2Proof.Machine
end

