-- ==== Sys2Proof/Laws/Ops.lean ====
section
/-! SUPPORT. What the compound operations do, each in one lemma. -/

namespace Sys2Proof.Machine

/-- A discard cleans the decoder and leaves its diagnostic, and nothing else (R100). -/
theorem State.discard_eq (c : DropCause) (s : State) :
    s.discard c = { s with rxBuf := [], rxEsc := false, rxAcc := 0, rxAck := false, evt := s.evt ++ [.rxDrop c] } := rfl

/-- An accept enqueues the packet, notifies and cleans the decoder, and nothing else (R85). -/
theorem State.accept_eq (p : Packet) (s : State) :
    s.accept p = { s with rxBuf := [], rxEsc := false, rxAcc := 0, rxAck := false, pq := s.pq ++ [p],
                          evt := s.evt ++ [.pktEvt] } := rfl

theorem State.fetch_nil {s : State} (h : s.pending = []) : s.fetch = none := by
  simp [State.fetch, h]

theorem State.fetch_cons {s : State} {w : Req} {rest : List Req} (h : s.pending = w :: rest) :
    s.fetch = some (w, { s with pending := rest }) := by
  simp [State.fetch, h]

theorem State.fetch_present {s : State} {w : Nat} (h : w < 2 ^ 11) :
    (s.present w).fetch = some (BitVec.ofNat 11 w, s) := by
  rw [State.present, if_pos h, State.fetch]

/-- Where the row's own effect is that of its request word under the row's conditions, the row's meaning is the effect of
its request word in every state. -/
theorem asRow_eq {c : Bool} {own whole : State} (h : c = true → own = whole) : asRow c own whole = .next whole := by
  cases c
  · rfl
  · simp [asRow, h rfl]

end Sys2Proof.Machine
end

