-- ==== Sys2Proof/Laws/Queue.lean ====
section
/-! SUPPORT. What the queue's operations do. -/

namespace Sys2Proof.Machine

theorem dequeue_cons {s : State} {p : Packet} {rest : List Packet} (h : s.pq = p :: rest) :
    dequeue s = { s with pq := rest, results := s.results ++ [.packet p] } := by
  simp [dequeue, h, dequeueHead, State.report, State.dropHead]

theorem dequeue_nil {s : State} (h : s.pq = []) : dequeue s = { s with results := s.results ++ [.empty] } := by
  simp [dequeue, h, dequeueEmpty, State.report]

theorem execDeqHead_eq (s : State) : execDeqHead s = .next (dequeue s) := by
  cases h : s.pq <;> simp [execDeqHead, dequeue, h]

theorem execDeqEmpty_eq (s : State) : execDeqEmpty s = .next (dequeue s) :=
  asRow_eq fun h => by
    rw [List.isEmpty_iff] at h
    simp [dequeue, h]

end Sys2Proof.Machine
end

