-- ==== Sys2Proof/Laws/Receive.lean ====
section
/-! SUPPORT. What the decoder's operation does: one lemma per case of the transition, the inversion lemma that lists them
all, and that each case row has the effect of its request word. -/

namespace Sys2Proof.Machine

section Cases

variable {s : State} {b : Byte}

theorem rxByte_escEnd (h : s.rxEsc = true) : rxByte ESC_END s = rxUnescapeEnd s := by
  simp [rxByte, h, rxEscaped]

theorem rxByte_escEsc (h : s.rxEsc = true) : rxByte ESC_ESC s = rxUnescapeEsc s := by
  simp [rxByte, h, rxEscaped]

theorem rxByte_endFlag (h : s.rxEsc = true) (hp : s.params.escEndPolicy = .flagOnly) :
    rxByte END s = rxEndInEscapeFlag s := by
  simp [rxByte, h, rxEscaped, hp]

theorem rxByte_endDiscard (h : s.rxEsc = true) (hp : s.params.escEndPolicy = .discard) :
    rxByte END s = rxEndInEscapeDiscard s := by
  simp [rxByte, h, rxEscaped, hp]

theorem rxByte_bad (h : s.rxEsc = true) (h1 : b ≠ ESC_END) (h2 : b ≠ ESC_ESC) (h3 : b ≠ END) :
    rxByte b s = rxBadEscape s := by
  simp [rxByte, h, rxEscaped, h1, h2, h3]

theorem rxByte_esc (h : s.rxEsc = false) : rxByte ESC s = rxEscape s := by
  simp [rxByte, h]

theorem rxByte_boundary (h : s.rxEsc = false) : rxByte END s = rxBoundary s := by
  simp [rxByte, h]

theorem rxByte_data (h : s.rxEsc = false) (h1 : b ≠ ESC) (h2 : b ≠ END) : rxByte b s = rxData b s := by
  simp [rxByte, h, h1, h2]

theorem rxBoundary_short (hc : s.params.cken = true) (hs : bufShort s = true) : rxBoundary s = rxShortFrame s := by
  simp [rxBoundary, hc, hs]

theorem rxBoundary_mismatch (hc : s.params.cken = true) (hs : bufShort s = false) (hk : ckPass s = false) :
    rxBoundary s = rxMismatch s := by
  simp [rxBoundary, hc, hs, hk]

theorem rxBoundary_match (hc : s.params.cken = true) (hs : bufShort s = false) (hk : ckPass s = true) :
    rxBoundary s = rxMatch s := by
  simp [rxBoundary, hc, hs, hk]

theorem rxBoundary_noCheck (hc : s.params.cken = false) : rxBoundary s = rxNoCheck s := by
  simp [rxBoundary, hc]

end Cases

/-- Everything a frame boundary can do (R80): a discard for one of two causes, or an accept. -/
theorem rxBoundary_cases (s : State) :
    (∃ c, rxBoundary s = s.discard c ∧ s.params.cken = true) ∨ (∃ p, rxBoundary s = s.accept p) := by
  cases hc : s.params.cken
  · exact .inr ⟨_, rxBoundary_noCheck hc⟩
  cases hs : bufShort s
  · cases hk : ckPass s
    · exact .inl ⟨_, rxBoundary_mismatch hc hs hk, rfl⟩
    · exact .inr ⟨_, rxBoundary_match hc hs hk⟩
  · exact .inl ⟨_, rxBoundary_short hc hs, rfl⟩

/-- Everything `RXB` can do (R71), in the order of the transition table of 41_rx_decoder.md section 4. -/
theorem rxByte_cases (b : Byte) (s : State) :
    (s.rxEsc = true ∧ ∃ v, rxByte b s = (s.setEsc false).append v) ∨
    (s.rxEsc = true ∧ b = END ∧ s.params.escEndPolicy = .flagOnly ∧ rxByte b s = (s.setEsc false).setAck) ∨
    (∃ c, rxByte b s = s.discard c) ∨
    (s.rxEsc = false ∧ b = ESC ∧ rxByte b s = s.setEsc true) ∨
    (s.rxEsc = false ∧ b = END ∧ ∃ p, rxByte b s = s.accept p) ∨
    (s.rxEsc = false ∧ b ≠ ESC ∧ b ≠ END ∧ rxByte b s = s.append b) := by
  cases h : s.rxEsc
  · by_cases h1 : b = ESC
    · subst h1; exact .inr (.inr (.inr (.inl ⟨rfl, rfl, rxByte_esc h⟩)))
    · by_cases h2 : b = END
      · subst h2
        rcases rxBoundary_cases s with ⟨c, hc, -⟩ | ⟨p, hp⟩
        · exact .inr (.inr (.inl ⟨c, (rxByte_boundary h).trans hc⟩))
        · exact .inr (.inr (.inr (.inr (.inl ⟨rfl, rfl, p, (rxByte_boundary h).trans hp⟩))))
      · exact .inr (.inr (.inr (.inr (.inr ⟨rfl, h1, h2, rxByte_data h h1 h2⟩))))
  · by_cases h1 : b = ESC_END
    · subst h1; exact .inl ⟨rfl, _, rxByte_escEnd h⟩
    by_cases h2 : b = ESC_ESC
    · subst h2; exact .inl ⟨rfl, _, rxByte_escEsc h⟩
    by_cases h3 : b = END
    · subst h3
      cases hp : s.params.escEndPolicy
      · exact .inr (.inl ⟨rfl, rfl, rfl, rxByte_endFlag h hp⟩)
      · exact .inr (.inr (.inl ⟨_, rxByte_endDiscard h hp⟩))
    · exact .inr (.inr (.inl ⟨_, rxByte_bad h h1 h2 h3⟩))

section Rows

variable (s : State) (b : Byte)

theorem execRxbEEscEnd_eq : execRxbEEscEnd s = .next (rxByte ESC_END s) := asRow_eq fun h => (rxByte_escEnd h).symm

theorem execRxbEEscEsc_eq : execRxbEEscEsc s = .next (rxByte ESC_ESC s) := asRow_eq fun h => (rxByte_escEsc h).symm

theorem execRxbEEndFlag_eq : execRxbEEndFlag s = .next (rxByte END s) :=
  asRow_eq fun h => by
    simp only [Bool.and_eq_true, beq_iff_eq] at h
    exact (rxByte_endFlag h.1 h.2).symm

theorem execRxbEEndDiscard_eq : execRxbEEndDiscard s = .next (rxByte END s) :=
  asRow_eq fun h => by
    simp only [Bool.and_eq_true, beq_iff_eq] at h
    exact (rxByte_endDiscard h.1 h.2).symm

theorem execRxbEOther_eq : execRxbEOther b s = .next (rxByte b s) :=
  asRow_eq fun h => by
    simp only [Bool.and_eq_true, bne_iff_ne] at h
    exact (rxByte_bad h.1.1.1 h.1.1.2 h.1.2 h.2).symm

theorem execRxbNEsc_eq : execRxbNEsc s = .next (rxByte ESC s) :=
  asRow_eq fun h => (rxByte_esc (by simpa using h)).symm

theorem execRxbNEndShort_eq : execRxbNEndShort s = .next (rxByte END s) :=
  asRow_eq fun h => by
    simp only [Bool.and_eq_true, Bool.not_eq_true'] at h
    rw [rxByte_boundary h.1.1, rxBoundary_short h.1.2 h.2]

theorem execRxbNEndMismatch_eq : execRxbNEndMismatch s = .next (rxByte END s) :=
  asRow_eq fun h => by
    simp only [Bool.and_eq_true, Bool.not_eq_true'] at h
    rw [rxByte_boundary h.1.1.1, rxBoundary_mismatch h.1.1.2 h.1.2 h.2]

theorem execRxbNEndMatch_eq : execRxbNEndMatch s = .next (rxByte END s) :=
  asRow_eq fun h => by
    simp only [Bool.and_eq_true, Bool.not_eq_true'] at h
    rw [rxByte_boundary h.1.1.1, rxBoundary_match h.1.1.2 h.1.2 h.2]

theorem execRxbNEndNock_eq : execRxbNEndNock s = .next (rxByte END s) :=
  asRow_eq fun h => by
    simp only [Bool.and_eq_true, Bool.not_eq_true'] at h
    rw [rxByte_boundary h.1, rxBoundary_noCheck h.2]

theorem execRxbNData_eq : execRxbNData b s = .next (rxByte b s) :=
  asRow_eq fun h => by
    simp only [Bool.and_eq_true, Bool.not_eq_true', bne_iff_ne] at h
    exact (rxByte_data h.1.1 h.1.2 h.2).symm

end Rows

end Sys2Proof.Machine
end

