-- ==== Sys2Proof/Laws/Transmit.lean ====
section
/-! SUPPORT. What the encoder's operations do. -/

namespace Sys2Proof.Machine

theorem txByte_eq (b : Byte) (s : State) :
    txByte b s = { s with txw := s.txw ++ esc b, txAcc := add32 s.txAcc (contrib b) } := rfl

theorem txEndChecked_eq (s : State) :
    txEndChecked s = { s with txw := s.txw ++ (le32 s.txAcc ++ [END]), txAcc := 0 } := by
  simp [txEndChecked, State.emit, State.clearTx]

theorem txEndPlain_eq (s : State) : txEndPlain s = { s with txw := s.txw ++ [END], txAcc := 0 } := rfl

/-- `TXEND` in both modes, in one lemma. -/
theorem txEnd_eq (s : State) :
    txEnd s = { s with txw := s.txw ++ ((if s.params.cken then le32 s.txAcc else []) ++ [END]), txAcc := 0 } := by
  cases h : s.params.cken <;> simp [txEnd, h, txEndChecked_eq, txEndPlain_eq]

theorem execTxbEnd_eq (s : State) : execTxbEnd s = .next (txByte END s) := rfl

theorem execTxbEsc_eq (s : State) : execTxbEsc s = .next (txByte ESC s) := rfl

theorem execTxbLit_eq (b : Byte) (s : State) : execTxbLit b s = .next (txByte b s) := by
  apply asRow_eq
  intro h
  simp only [Bool.and_eq_true, bne_iff_ne] at h
  rw [txLiteral, txByte, esc_literal h.1 h.2]

theorem execTxendCk1_eq (s : State) : execTxendCk1 s = .next (txEnd s) :=
  asRow_eq fun h => by rw [txEnd, if_pos h]

theorem execTxendCk0_eq (s : State) : execTxendCk0 s = .next (txEnd s) :=
  asRow_eq fun h => by simp at h; simp [txEnd, h]

end Sys2Proof.Machine
end

