-- ==== Sys2Proof/Laws/Exec.lean ====
section
/-! SUPPORT. Every instruction as one of six effects, and runs: the case analysis that claims over all instructions
start from. -/

namespace Sys2Proof.Machine

/-- Everything an instruction can do, by its operation (R11), the same in every state. -/
theorem exec_shape (i : Instr) :
    (∃ b, i.channel = .tx ∧ txOperand i = some b ∧ endsTxSum i = false ∧ ∀ s, exec i s = .next (txByte b s)) ∨
    (i.channel = .tx ∧ txOperand i = none ∧ endsTxSum i = true ∧ ∀ s, exec i s = .next (txEnd s)) ∨
    (∃ b, i.channel = .rx ∧ txOperand i = none ∧ endsTxSum i = false ∧ ∀ s, exec i s = .next (rxByte b s)) ∨
    (i.channel = .q ∧ txOperand i = none ∧ endsTxSum i = false ∧ ∀ s, exec i s = .next (dequeue s)) ∨
    (i = .qcnt ∧ ∀ s, exec i s = .next (s.report (.count s.pq.length))) ∨
    (i = .reset ∧ ∀ s, exec i s = .next ((s.clearTx.resetDecoder).clearQueue).takeSupply) := by
  cases i with
  | txb b => exact .inl ⟨b, rfl, rfl, rfl, fun _ => rfl⟩
  | txendCk1 => exact .inr (.inl ⟨rfl, rfl, rfl, execTxendCk1_eq⟩)
  | txendCk0 => exact .inr (.inl ⟨rfl, rfl, rfl, execTxendCk0_eq⟩)
  | rxb b => exact .inr (.inr (.inl ⟨b, rfl, rfl, rfl, fun _ => rfl⟩))
  | deqHead => exact .inr (.inr (.inr (.inl ⟨rfl, rfl, rfl, execDeqHead_eq⟩)))
  | deqEmpty => exact .inr (.inr (.inr (.inl ⟨rfl, rfl, rfl, execDeqEmpty_eq⟩)))
  | qcnt => exact .inr (.inr (.inr (.inr (.inl ⟨rfl, fun _ => rfl⟩))))
  | reset => exact .inr (.inr (.inr (.inr (.inr ⟨rfl, fun _ => rfl⟩))))
  | txbEnd => exact .inl ⟨END, rfl, rfl, rfl, execTxbEnd_eq⟩
  | txbEsc => exact .inl ⟨ESC, rfl, rfl, rfl, execTxbEsc_eq⟩
  | txbLit b => exact .inl ⟨b, rfl, rfl, rfl, execTxbLit_eq b⟩
  | rxbEEscEnd => exact .inr (.inr (.inl ⟨_, rfl, rfl, rfl, execRxbEEscEnd_eq⟩))
  | rxbEEscEsc => exact .inr (.inr (.inl ⟨_, rfl, rfl, rfl, execRxbEEscEsc_eq⟩))
  | rxbEEndFlag => exact .inr (.inr (.inl ⟨_, rfl, rfl, rfl, execRxbEEndFlag_eq⟩))
  | rxbEEndDiscard => exact .inr (.inr (.inl ⟨_, rfl, rfl, rfl, execRxbEEndDiscard_eq⟩))
  | rxbEOther b => exact .inr (.inr (.inl ⟨b, rfl, rfl, rfl, fun s => execRxbEOther_eq s b⟩))
  | rxbNEsc => exact .inr (.inr (.inl ⟨_, rfl, rfl, rfl, execRxbNEsc_eq⟩))
  | rxbNEndShort => exact .inr (.inr (.inl ⟨_, rfl, rfl, rfl, execRxbNEndShort_eq⟩))
  | rxbNEndMismatch => exact .inr (.inr (.inl ⟨_, rfl, rfl, rfl, execRxbNEndMismatch_eq⟩))
  | rxbNEndMatch => exact .inr (.inr (.inl ⟨_, rfl, rfl, rfl, execRxbNEndMatch_eq⟩))
  | rxbNEndNock => exact .inr (.inr (.inl ⟨_, rfl, rfl, rfl, execRxbNEndNock_eq⟩))
  | rxbNData b => exact .inr (.inr (.inl ⟨b, rfl, rfl, rfl, fun s => execRxbNData_eq s b⟩))

/-- `exec_shape` at one state. -/
theorem exec_cases (i : Instr) (s : State) :
    (∃ b, i.channel = .tx ∧ txOperand i = some b ∧ endsTxSum i = false ∧ exec i s = .next (txByte b s)) ∨
    (i.channel = .tx ∧ txOperand i = none ∧ endsTxSum i = true ∧ exec i s = .next (txEnd s)) ∨
    (∃ b, i.channel = .rx ∧ txOperand i = none ∧ endsTxSum i = false ∧ exec i s = .next (rxByte b s)) ∨
    (i.channel = .q ∧ txOperand i = none ∧ endsTxSum i = false ∧ exec i s = .next (dequeue s)) ∨
    (i = .qcnt ∧ exec i s = .next (s.report (.count s.pq.length))) ∨
    (i = .reset ∧ exec i s = .next ((s.clearTx.resetDecoder).clearQueue).takeSupply) := by
  rcases exec_shape i with ⟨b, h1, h2, h3, h⟩ | ⟨h1, h2, h3, h⟩ | ⟨b, h1, h2, h3, h⟩ | ⟨h1, h2, h3, h⟩ | ⟨h1, h⟩ | ⟨h1, h⟩
  · exact .inl ⟨b, h1, h2, h3, h s⟩
  · exact .inr (.inl ⟨h1, h2, h3, h s⟩)
  · exact .inr (.inr (.inl ⟨b, h1, h2, h3, h s⟩))
  · exact .inr (.inr (.inr (.inl ⟨h1, h2, h3, h s⟩)))
  · exact .inr (.inr (.inr (.inr (.inl ⟨h1, h s⟩))))
  · exact .inr (.inr (.inr (.inr (.inr ⟨h1, h s⟩))))

theorem exec_txb (b : Byte) (s : State) : exec (.txb b) s = .next (txByte b s) := rfl

theorem exec_rxb (b : Byte) (s : State) : exec (.rxb b) s = .next (rxByte b s) := rfl

@[simp] theorem run_nil (s : State) : run [] s = .next s := rfl

theorem run_cons {i : Instr} {s t : State} (h : exec i s = .next t) (is : List Instr) : run (i :: is) s = run is t := by
  simp [run, h]

theorem run_append {is : List Instr} {s t : State} (h : run is s = .next t) (js : List Instr) :
    run (is ++ js) s = run js t := by
  induction is generalizing s with
  | nil => cases h; rfl
  | cons i is ih =>
    rw [List.cons_append]
    cases hi : exec i s with
    | next u => rw [run_cons hi] at h ⊢; exact ih h
    | fault f => cases f
    | refused r => simp [run, hi] at h

theorem feed_cons (b : Byte) (W : List Byte) (s : State) : run (feed (b :: W)) s = run (feed W) (rxByte b s) :=
  run_cons (exec_rxb b s) (feed W)

theorem send_cons (b : Byte) (P : List Byte) (s : State) : run (send (b :: P)) s = run (send P) (txByte b s) :=
  run_cons (exec_txb b s) (send P)

end Sys2Proof.Machine
end

