-- ==== Sys2Proof/Laws/PerInstr.lean ====
section
/-! SUPPORT. The per-instruction family EncodeFields: the request word of an instruction holds its operation number in
`REQ[10:8]` and its operand in `REQ[7:0]` (R55). -/

namespace Sys2Proof.Laws.EncodeFields

def Statement (i : Instr) : Prop := reqOp (encode i) = i.opNumber ∧ reqData (encode i) = i.operand

theorem of_encode (i : Instr) : Statement i := ⟨reqOp_append _ _, reqData_append _ _⟩

theorem txb (b : Byte) : Statement (.txb b) := of_encode _
theorem txendCk1 : Statement .txendCk1 := of_encode _
theorem txendCk0 : Statement .txendCk0 := of_encode _
theorem rxb (b : Byte) : Statement (.rxb b) := of_encode _
theorem deqHead : Statement .deqHead := of_encode _
theorem deqEmpty : Statement .deqEmpty := of_encode _
theorem qcnt : Statement .qcnt := of_encode _
theorem reset : Statement .reset := of_encode _
theorem txbEnd : Statement .txbEnd := of_encode _
theorem txbEsc : Statement .txbEsc := of_encode _
theorem txbLit (b : Byte) : Statement (.txbLit b) := of_encode _
theorem rxbEEscEnd : Statement .rxbEEscEnd := of_encode _
theorem rxbEEscEsc : Statement .rxbEEscEsc := of_encode _
theorem rxbEEndFlag : Statement .rxbEEndFlag := of_encode _
theorem rxbEEndDiscard : Statement .rxbEEndDiscard := of_encode _
theorem rxbEOther (b : Byte) : Statement (.rxbEOther b) := of_encode _
theorem rxbNEsc : Statement .rxbNEsc := of_encode _
theorem rxbNEndShort : Statement .rxbNEndShort := of_encode _
theorem rxbNEndMismatch : Statement .rxbNEndMismatch := of_encode _
theorem rxbNEndMatch : Statement .rxbNEndMatch := of_encode _
theorem rxbNEndNock : Statement .rxbNEndNock := of_encode _
theorem rxbNData (b : Byte) : Statement (.rxbNData b) := of_encode _

end Sys2Proof.Laws.EncodeFields
end

