-- ==== Sys2Proof/Tests/Slice0.lean ====
section
/-! SUPPORT. The model's own tests. Every expected value is the spec's: request words from the `match` column of
spec/opcode_table.json and from 95_test_vectors.md section 2.10, results from its sections 2.1 to 2.9. Then the witnesses:
for each statement with hypotheses, concrete values that meet them. -/

namespace Sys2Proof.Tests

open Sys2Proof Sys2Proof.Machine

/-- What a projection of the next state is; nothing where there is none. -/
def after {α : Type} (f : State → α) : Host.Outcome State Fault Refusal → Option α
  | .next t => some (f t)
  | .fault _ => none
  | .refused _ => none

/-- A state after reset with the given parameters and `TX_ACC`. -/
def txState (ck : Bool) (acc : Word32) : State := { State.resetWith ⟨ck, .flagOnly⟩ with txAcc := acc }

/-- A state after reset with the given parameters and decoder, written as the vectors write it. -/
def rxState (ck : Bool) (pol : EscEndPolicy) (buf : List Byte) (e a : Bool) (acc : Word32) : State :=
  { State.resetWith ⟨ck, pol⟩ with rxBuf := buf, rxEsc := e, rxAck := a, rxAcc := acc }

/-- A state after reset with the given queue. -/
def qState (q : List Packet) : State := { State.resetWith ⟨true, .flagOnly⟩ with pq := q }

/-- A decoder state as the vectors write it: `(RX_BUF, RX_ESC, RX_ACK, RX_ACC)`. -/
def dec (s : State) : List Byte × Bool × Bool × Word32 := (s.rxBuf, s.rxEsc, s.rxAck, s.rxAcc)

/-- The clean decoder state. -/
def clean : List Byte × Bool × Bool × Word32 := ([], false, false, 0)

/-- The context of a state after reset, with an escape pending or a filled buffer. -/
def ctxOf (ck : Bool) (pol : EscEndPolicy) (e short pass : Bool) : Ctx :=
  { cken := ck, policy := pol, rxEsc := e, pqEmpty := true, bufShort := short, ckPass := pass }

/-! ### Well-formedness: each check refuses an ill-formed term -/

theorem test_wf_txbLit : (Instr.txbLit 0xC0).wf = false ∧ (Instr.txbLit 0xDB).wf = false ∧
    (Instr.txbLit 0xDC).wf = true ∧ (Instr.txbLit 0xDD).wf = true := by decide

theorem test_wf_rxbEOther : (Instr.rxbEOther 0xDC).wf = false ∧ (Instr.rxbEOther 0xDD).wf = false ∧
    (Instr.rxbEOther 0xC0).wf = false ∧ (Instr.rxbEOther 0xDB).wf = true := by decide

theorem test_wf_rxbNData : (Instr.rxbNData 0xDB).wf = false ∧ (Instr.rxbNData 0xC0).wf = false ∧
    (Instr.rxbNData 0xDC).wf = true ∧ (Instr.rxbNData 0xDD).wf = true := by decide

/-! ### Decoding: words written out from the spec's encoding, `op` in the three bits above the eight of `data` -/

theorem test_decode_op_rows :
    decodeInGroup .op ctxAfterReset 0b001_00000010#11 = some (.txb 0x02) ∧
    decodeInGroup .op (ctxOf true .flagOnly false true true) 0b010_11111111#11 = some .txendCk1 ∧
    decodeInGroup .op (ctxOf false .flagOnly false true true) 0b010_00000000#11 = some .txendCk0 ∧
    decodeInGroup .op ctxAfterReset 0b011_11000000#11 = some (.rxb 0xC0) := by decide

theorem test_decode_queue_rows :
    decode (qState [[0x02]]).ctx 0b100_00000000#11 = .ok .deqHead ∧
    decode (qState []).ctx 0b100_01010101#11 = .ok .deqEmpty ∧
    decode (qState []).ctx 0b101_00000000#11 = .ok .qcnt ∧
    decode (qState []).ctx 0b111_00000000#11 = .ok .reset := by decide

theorem test_decode_txb_rows :
    decode ctxAfterReset 0b001_11000000#11 = .ok .txbEnd ∧
    decode ctxAfterReset 0b001_11011011#11 = .ok .txbEsc ∧
    decode ctxAfterReset 0b001_11011100#11 = .ok (.txbLit 0xDC) ∧
    decode ctxAfterReset 0b001_00000010#11 = .ok (.txbLit 0x02) := by decide

theorem test_decode_rxb_escape_rows :
    decode (ctxOf true .flagOnly true true true) 0b011_11011100#11 = .ok .rxbEEscEnd ∧
    decode (ctxOf true .flagOnly true true true) 0b011_11011101#11 = .ok .rxbEEscEsc ∧
    decode (ctxOf true .flagOnly true true true) 0b011_11000000#11 = .ok .rxbEEndFlag ∧
    decode (ctxOf true .discard true true true) 0b011_11000000#11 = .ok .rxbEEndDiscard ∧
    decode (ctxOf true .flagOnly true true true) 0b011_11011011#11 = .ok (.rxbEOther 0xDB) := by decide

theorem test_decode_rxb_rows :
    decode (ctxOf true .flagOnly false true true) 0b011_11011011#11 = .ok .rxbNEsc ∧
    decode (ctxOf true .flagOnly false true true) 0b011_11000000#11 = .ok .rxbNEndShort ∧
    decode (ctxOf true .flagOnly false false false) 0b011_11000000#11 = .ok .rxbNEndMismatch ∧
    decode (ctxOf true .flagOnly false false true) 0b011_11000000#11 = .ok .rxbNEndMatch ∧
    decode (ctxOf false .flagOnly false true true) 0b011_11000000#11 = .ok .rxbNEndNock ∧
    decode (ctxOf true .flagOnly false true true) 0b011_11011100#11 = .ok (.rxbNData 0xDC) := by decide

theorem test_decode_reserved :
    decode ctxAfterReset 0b000_00000000#11 = .error (.reservedOperation 0) ∧
    decode ctxAfterReset 0b000_11000000#11 = .error (.reservedOperation 0) ∧
    decode ctxAfterReset 0b110_00000000#11 = .error (.reservedOperation 6) ∧
    decode ctxAfterReset 0b110_11111111#11 = .error (.reservedOperation 6) ∧
    decodeNat ctxAfterReset 0x800 = .error .notARequestWord := by decide

theorem test_decodeTableWord : decodeTableWord 11 0x1DB = some .txbEsc ∧ decodeTableWord 11 0x200 = some .txendCk1 ∧
    decodeTableWord 11 0x3DB = some .rxbNEsc ∧ decodeTableWord 11 0x600 = none := by decide

/-! ### Arithmetic (95_test_vectors.md section 2.1) -/

theorem test_cks : cks [0xFF] = 0x100 ∧ cks [0x41, 0x42, 0x43] = 0xC9 ∧ cks [0x43, 0x41, 0x42] = 0xC9 ∧
    cks [0, 0, 0, 0, 0] = 5 := by decide

theorem test_add32_sub32 : add32 0xFFFFFFFF 1 = 0 ∧ add32 0xFFFFFF80 0x100 = 0x80 ∧ sub32 0 1 = 0xFFFFFFFF ∧
    sub32 0xA 7 = 3 := by decide

theorem test_trailer : le32 0x12345678 = [0x78, 0x56, 0x34, 0x12] ∧ le32 0xDB0000C0 = [0xC0, 0x00, 0x00, 0xDB] ∧
    unle32 [0x78, 0x56, 0x34, 0x12] = 0x12345678 ∧ unle32 [0, 0, 0, 0x80] = 0x80000000 := by decide

theorem test_wire : wire true [0xC0, 0xDB] = [0xDB, 0xDC, 0xDB, 0xDD, 0x9D, 0x01, 0x00, 0x00, 0xC0] ∧
    wire false [0xC0, 0xDB] = [0xDB, 0xDC, 0xDB, 0xDD, 0xC0] := by decide

/-! ### The encoder (sections 2.2 and 2.3) -/

theorem test_txb : after State.txw (exec (.txb 0xC0) (txState true 0xFFFFFFFF)) = some [0xDB, 0xDC] ∧
    after State.txAcc (exec (.txb 0xC0) (txState true 0xFFFFFFFF)) = some 0xC0 := by decide

theorem test_txbEnd : after State.txw (exec .txbEnd (txState true 0)) = some [0xDB, 0xDC] ∧
    after State.txAcc (exec .txbEnd (txState true 0)) = some 0xC1 := by decide

theorem test_txbEsc : after State.txw (exec .txbEsc (txState true 0xFFFFFF24)) = some [0xDB, 0xDD] ∧
    after State.txAcc (exec .txbEsc (txState true 0xFFFFFF24)) = some 0 := by decide

theorem test_txbLit : after State.txw (exec (.txbLit 0xFF) (txState true 0xFFFFFF80)) = some [0xFF] ∧
    after State.txAcc (exec (.txbLit 0xFF) (txState true 0xFFFFFF80)) = some 0x80 := by decide

theorem test_txendCk1 : after State.txw (exec .txendCk1 (txState true 0x12345678)) = some [0x78, 0x56, 0x34, 0x12, 0xC0] ∧
    after State.txAcc (exec .txendCk1 (txState true 0x12345678)) = some 0 := by decide

theorem test_txendCk1_raw_trailer :
    after State.txw (exec .txendCk1 (txState true 0xDB0000C0)) = some [0xC0, 0x00, 0x00, 0xDB, 0xC0] := by decide

theorem test_txendCk0 : after State.txw (exec .txendCk0 (txState false 0x12345678)) = some [0xC0] ∧
    after State.txAcc (exec .txendCk0 (txState false 0x12345678)) = some 0 := by decide

/-! ### The decoder (section 2.5) -/

theorem test_rxb_in_escape :
    after dec (exec (.rxb 0xDB) (rxState true .flagOnly [0x41] true false 0x42)) = some clean := by decide

theorem test_rxb_data : after dec (exec (.rxb 0xDC) (rxState true .flagOnly [0x41] false false 0x42)) =
    some ([0x41, 0xDC], false, false, 0x11F) := by decide

theorem test_rxbEEscEnd : after dec (exec .rxbEEscEnd (rxState true .flagOnly [0x41] true false 0x42)) =
    some ([0x41, 0xC0], false, false, 0x103) := by decide

theorem test_rxbEEscEsc : after dec (exec .rxbEEscEsc (rxState true .flagOnly [] true false 0)) =
    some ([0xDB], false, false, 0xDC) := by decide

theorem test_rxbEEndFlag : after dec (exec .rxbEEndFlag (rxState true .flagOnly [0x41] true false 0x42)) =
    some ([0x41], false, true, 0x42) ∧
    after State.evt (exec .rxbEEndFlag (rxState true .flagOnly [0x41] true false 0x42)) = some [] := by decide

theorem test_rxbEEndDiscard : after dec (exec .rxbEEndDiscard (rxState false .discard [0x41] true false 0x42)) =
    some clean ∧ after State.evt (exec .rxbEEndDiscard (rxState false .discard [0x41] true false 0x42)) =
    some [.rxDrop .badEscape] := by decide

theorem test_rxbEOther : after dec (exec (.rxbEOther 0x41) (rxState true .flagOnly [0x41] true true 0x42)) = some clean ∧
    after State.evt (exec (.rxbEOther 0x41) (rxState true .flagOnly [0x41] true true 0x42)) =
    some [.rxDrop .badEscape] := by decide

theorem test_rxbNEsc : after dec (exec .rxbNEsc (rxState true .flagOnly [0x41] false true 0x42)) =
    some ([0x41], true, true, 0x42) := by decide

theorem test_rxbNEndShort : after dec (exec .rxbNEndShort (rxState true .flagOnly [0x02, 0x03, 0x00] false true 8)) =
    some clean ∧ after State.evt (exec .rxbNEndShort (rxState true .flagOnly [0x02, 0x03, 0x00] false true 8)) =
    some [.rxDrop .truncatedTrailer] := by decide

theorem test_rxbNEndMismatch :
    after dec (exec .rxbNEndMismatch (rxState true .flagOnly [0x02, 0x04, 0, 0, 0] false false 0xB)) = some clean ∧
    after State.evt (exec .rxbNEndMismatch (rxState true .flagOnly [0x02, 0x04, 0, 0, 0] false false 0xB)) =
    some [.rxDrop .checksumMismatch] := by decide

/-- The vector on a state no run reaches: `sub32` wraps. -/
theorem test_rxbNEndMismatch_wraps :
    expectedCks (rxState true .flagOnly [0, 0, 0, 0] false false 2) = 0xFFFFFFFE ∧
    after State.evt (exec .rxbNEndMismatch (rxState true .flagOnly [0, 0, 0, 0] false false 2)) =
    some [.rxDrop .checksumMismatch] := by decide

theorem test_rxbNEndMatch :
    after State.pq (exec .rxbNEndMatch (rxState true .flagOnly [0xC0, 0xDB, 0x9D, 0x01, 0, 0] false false 0x23F)) =
    some [[0xC0, 0xDB]] ∧
    after State.evt (exec .rxbNEndMatch (rxState true .flagOnly [0xC0, 0xDB, 0x9D, 0x01, 0, 0] false false 0x23F)) =
    some [.pktEvt] := by decide

theorem test_rxbNEndMatch_zero_length :
    after State.pq (exec .rxbNEndMatch (rxState true .flagOnly [0, 0, 0, 0] false false 4)) = some [[]] := by decide

theorem test_rxbNEndNock :
    after State.pq (exec .rxbNEndNock (rxState false .flagOnly [0x02, 0x04, 0, 0, 0] false false 0xB)) =
    some [[0x02, 0x04, 0, 0, 0]] ∧
    after dec (exec .rxbNEndNock (rxState false .flagOnly [0x02, 0x04, 0, 0, 0] false false 0xB)) = some clean := by decide

theorem test_rxbNData : after dec (exec (.rxbNData 0x42) (rxState false .flagOnly [0x41] false true 0x42)) =
    some ([0x41, 0x42], false, true, 0x85) := by decide

/-! ### The queue (section 2.8) and `RESET` (section 2.9) -/

theorem test_deqHead : after State.pq (exec .deqHead (qState [[0x02], [0x03]])) = some [[0x03]] ∧
    after State.results (exec .deqHead (qState [[0x02], [0x03]])) = some [.packet [0x02]] := by decide

theorem test_deqHead_zero_length : after State.pq (exec .deqHead (qState [[], [0x02]])) = some [[0x02]] ∧
    after State.results (exec .deqHead (qState [[], [0x02]])) = some [.packet []] := by decide

theorem test_deqEmpty : after State.pq (exec .deqEmpty (qState [])) = some [] ∧
    after State.results (exec .deqEmpty (qState [])) = some [.empty] := by decide

theorem test_qcnt : after State.results (exec .qcnt (qState [[0x02], []])) = some [.count 2] ∧
    after State.pq (exec .qcnt (qState [[0x02], []])) = some [[0x02], []] := by decide

theorem test_reset :
    after State.pq (exec .reset { rxState true .flagOnly [0x41] true false 0x42 with txAcc := 0x42, pq := [[0x02]] }) =
    some [] ∧
    after dec (exec .reset { rxState true .flagOnly [0x41] true false 0x42 with txAcc := 0x42, pq := [[0x02]] }) =
    some clean := by decide

theorem test_reset_takes_parameters :
    after State.params (exec .reset { State.reset with supplies := [⟨false, .discard⟩] }) = some ⟨false, .discard⟩ := by
  decide

/-! ### The step -/

theorem test_step_runs : after State.txw (step (State.reset.withFetchWord 11 0x1C0)) = some [0xDB, 0xDC] ∧
    after State.pending (step (State.reset.withFetchWord 11 0x1C0)) = some [] := by decide

theorem test_step_refuses : step (State.reset.withFetchWord 11 0x600) = .refused (.reservedRequest 6) := by rfl

/-! ### Witnesses: values that meet the hypotheses of each statement -/

/-- `[02 03 00 00 00]` buffered, its accumulator `0x0A`: the frame of `[02]` before its `END`. -/
def buffered : State := rxState true .flagOnly [0x02, 0x03, 0, 0, 0] false false 0xA

theorem witness_EveryRowDecodesFromItsEncoding :
    (Instr.txbLit 0xFF).wf = true ∧ (Instr.txbLit 0xFF).selected ctxAfterReset = true ∧
    Instr.deqEmpty.selected ctxAfterReset = true ∧ Instr.deqHead.selected (qState [[]]).ctx = true ∧
    (Instr.rxbEOther 0xDB).wf = true ∧
    (Instr.rxbEOther 0xDB).selected (ctxOf true .flagOnly true true true) = true ∧
    Instr.rxbNEndMatch.selected buffered.ctx = true := by decide

theorem witness_DecodedInstructionIsSelectedAndEncodesBack :
    decode ctxAfterReset 0x1FF#11 = .ok (.txbLit 0xFF) ∧ reqOp 0x1FF#11 = 1#3 ∧
    decode ctxAfterReset 0x300#11 = .ok (.rxbNData 0) ∧ reqOp 0x300#11 = 3#3 := by decide

theorem witness_DecoderRefusesExactlyReservedOperations :
    reqOp 0x0FF#11 = 0#3 ∧ reqOp 0x600#11 = 6#3 ∧ ¬ (reqOp 0x100#11 = 0#3 ∨ reqOp 0x100#11 = 6#3) ∧
    ¬ (reqOp 0x7FF#11 = 0#3 ∨ reqOp 0x7FF#11 = 6#3) := by decide

theorem witness_IgnoredDataDoesNotChangeTheInstruction : ∀ o ∈ [2#3, 4#3, 5#3, 7#3], o = 2#3 ∨ o = 4#3 ∨ o = 5#3 ∨ o = 7#3 := by
  decide

theorem witness_RequestWordsDecodeAsTheVectorsSay :
    ctxAfterReset.cken = true ∧ (ctxOf false .flagOnly false true true).cken = false ∧ ctxAfterReset.rxEsc = false ∧
    (qState [[]]).ctx.pqEmpty = false ∧ ctxAfterReset.pqEmpty = true := by decide

theorem witness_StepRunsTheDecodedInstruction :
    (State.reset.withFetchWord 11 0x3C0).pending = [0x3C0#11] ∧
    decode (State.reset.withFetchWord 11 0x3C0).ctx 0x3C0#11 = .ok .rxbNEndShort := by decide

theorem witness_StepOfAnEncodedInstructionRunsIt :
    (State.reset.withFetchWord 11 0x3C0).pending = encode .rxbNEndMatch :: [] := by decide

theorem witness_StepRefusesAReservedWord :
    (State.reset.withFetchWord 11 0x0FF).pending = [0x0FF#11] ∧ reqOp 0x0FF#11 = 0#3 ∧
    (State.reset.withFetchWord 11 0x600).pending = [0x600#11] ∧ reqOp 0x600#11 = 6#3 := by decide

theorem witness_StepWithNothingPresentedChangesNothing : State.reset.pending = [] := by decide

theorem witness_StepAfterWithFetchWordRunsThatWord :
    0x7FF < 2 ^ 11 ∧ decode State.reset.ctx (BitVec.ofNat 11 0x7FF) = .ok .reset := by decide

theorem witness_TxbOfOtherByteEmitsItUnchanged :
    (0xBF#8 ≠ 0xC0#8 ∧ 0xBF#8 ≠ 0xDB#8) ∧ (0xDC#8 ≠ 0xC0#8 ∧ 0xDC#8 ≠ 0xDB#8) := by decide

theorem witness_TxendWithChecksumEmitsRawTrailer : (txState true 0xDB0000C0).params.cken = true := by decide

theorem witness_TxendWithoutChecksumEmitsEndOnly : (txState false 0x12345678).params.cken = false := by decide

theorem witness_FrameEmitsTheWireForm : (txState true 0).txAcc = 0 ∧ (txState false 0).txAcc = 0 := by decide

theorem witness_SentBytesHoldNoLiteralReservedByte :
    run (send [0xC0, 0xDB]) (txState true 0) = .next { txState true 0x19D with txw := [0xDB, 0xDC, 0xDB, 0xDD] } := by rfl

theorem witness_TxAccIsChecksumOfOperandsSinceTxend :
    (txState true 3).txAcc = cks [0x02] ∧
    run [.txendCk1, .txb 0x41] (txState true 3) =
      .next { txState true 0x42 with txw := [0x03, 0, 0, 0, 0xC0, 0x41] } := ⟨by decide, by rfl⟩

theorem witness_RxbUnescapesAValidPair : (rxState true .flagOnly [0x41] true false 0x42).rxEsc = true := by decide

theorem witness_RxbEndInEscapeSetsAckOnly : (rxState true .flagOnly [0x41] true true 0x42).rxEsc = true ∧
    (rxState true .flagOnly [0x41] true true 0x42).params.escEndPolicy = .flagOnly := by decide

theorem witness_RxbEndInEscapeDiscards : (rxState false .discard [0x41] true false 0x42).rxEsc = true ∧
    (rxState false .discard [0x41] true false 0x42).params.escEndPolicy = .discard := by decide

theorem witness_RxbBadEscapeDiscards : (rxState true .flagOnly [0x41] true false 0x42).rxEsc = true ∧
    0xDB#8 ≠ 0xDC#8 ∧ 0xDB#8 ≠ 0xDD#8 ∧ 0xDB#8 ≠ 0xC0#8 := by decide

theorem witness_RxbEscSetsEscapePending : (rxState true .flagOnly [] false false 0).rxEsc = false := by decide

theorem witness_RxbShortFrameIsDiscarded : (rxState true .flagOnly [1, 2, 3] false false 9).rxEsc = false ∧
    (rxState true .flagOnly [1, 2, 3] false false 9).params.cken = true ∧
    (rxState true .flagOnly [1, 2, 3] false false 9).rxBuf.length < 4 := by decide

theorem witness_RxbChecksumMismatchIsDiscarded : (rxState true .flagOnly [0, 0, 0, 1] false false 5).rxEsc = false ∧
    (rxState true .flagOnly [0, 0, 0, 1] false false 5).params.cken = true ∧
    (rxState true .flagOnly [0, 0, 0, 1] false false 5).rxBuf = [] ++ [0#8, 0#8, 0#8, 1#8] ∧
    (0#8).toNat + (0#8).toNat * 2 ^ 8 + (0#8).toNat * 2 ^ 16 + (1#8).toNat * 2 ^ 24 ≠
      ((rxState true .flagOnly [0, 0, 0, 1] false false 5).rxAcc.toNat + 2 ^ 32 -
        ((0#8).toNat + (0#8).toNat + (0#8).toNat + (1#8).toNat + 4)) % 2 ^ 32 := by decide

theorem witness_RxbChecksumMatchDeliversThePayload : buffered.rxEsc = false ∧ buffered.params.cken = true ∧
    buffered.rxBuf = [0x02#8] ++ [3#8, 0#8, 0#8, 0#8] ∧
    (3#8).toNat + (0#8).toNat * 2 ^ 8 + (0#8).toNat * 2 ^ 16 + (0#8).toNat * 2 ^ 24 =
      (buffered.rxAcc.toNat + 2 ^ 32 - ((3#8).toNat + (0#8).toNat + (0#8).toNat + (0#8).toNat + 4)) % 2 ^ 32 := by decide

theorem witness_RxbWithoutChecksumDeliversTheBuffer : (rxState false .flagOnly [] false false 0).rxEsc = false ∧
    (rxState false .flagOnly [] false false 0).params.cken = false := by decide

theorem witness_RxbDataIsAppended : (rxState true .flagOnly [0x41] false false 0x42).rxEsc = false ∧
    0xDC#8 ≠ 0xDB#8 ∧ 0xDC#8 ≠ 0xC0#8 := by decide

theorem witness_EndLeavesTheDecoderClean :
    exec (.rxb 0xC0) (rxState true .flagOnly [0x41] false true 0x42) =
      .next { rxState true .flagOnly [] false false 0 with evt := [.rxDrop .truncatedTrailer] } ∧
    (rxState true .discard [0x41] true false 0x42).params.escEndPolicy = .discard ∧
    exec (.rxb 0xC0) (rxState true .discard [0x41] true false 0x42) =
      .next { rxState true .discard [] false false 0 with evt := [.rxDrop .badEscape] } := ⟨by rfl, by decide, by rfl⟩

theorem witness_DiscardCausesHaveExactlyTheirConditions :
    exec (.rxb 0xC0) (rxState true .flagOnly [1, 2, 3] false false 9) =
      .next { rxState true .flagOnly [] false false 0 with evt := [.rxDrop .truncatedTrailer] } ∧
    exec (.rxb 0xC0) (rxState true .flagOnly [1, 2, 3, 4] false false 0xE) =
      .next { rxState true .flagOnly [] false false 0 with evt := [.rxDrop .checksumMismatch] } ∧
    exec (.rxb 0xDB) (rxState true .flagOnly [0x41] true false 0x42) =
      .next { rxState true .flagOnly [] false false 0 with evt := [.rxDrop .badEscape] } := ⟨by rfl, by rfl, by rfl⟩

theorem witness_DiscardChangesTheDecoderOnly :
    exec .rxbNEndShort (rxState true .flagOnly [1, 2, 3] false false 9) =
      .next { rxState true .flagOnly [] false false 0 with evt := [] ++ [.rxDrop .truncatedTrailer] } := by rfl

theorem witness_PacketEventIffPacketEnqueued :
    exec (.rxb 0xC0) buffered =
      .next { rxState true .flagOnly [] false false 0 with pq := [[0x02]], evt := [.pktEvt] } := by rfl

theorem witness_FeedingEscapedBytesBuffersThePayload : buffered.rxEsc = false := by decide

theorem witness_clean : (State.resetWith ⟨true, .flagOnly⟩).Clean ∧ (State.resetWith ⟨true, .discard⟩).Clean ∧
    (State.resetWith ⟨false, .flagOnly⟩).Clean ∧ (State.resetWith ⟨false, .discard⟩).Clean :=
  ⟨⟨rfl, rfl, rfl, rfl⟩, ⟨rfl, rfl, rfl, rfl⟩, ⟨rfl, rfl, rfl, rfl⟩, ⟨rfl, rfl, rfl, rfl⟩⟩

theorem witness_WireFormRoundTrips : ((State.resetWith ⟨true, .flagOnly⟩).Clean ∧
    ((State.resetWith ⟨true, .flagOnly⟩).params.cken = true → NoReserved (le32 (cks [0xC0, 0xDB])))) ∧
    ((State.resetWith ⟨false, .flagOnly⟩).Clean ∧ (State.resetWith ⟨false, .flagOnly⟩).params.cken = false) :=
  ⟨⟨witness_clean.1, fun _ => by unfold NoReserved; decide⟩, witness_clean.2.2.1, rfl⟩

theorem witness_ReservedTrailerByteNeverDeliversThePayload : (State.resetWith ⟨true, .flagOnly⟩).Clean ∧
    (State.resetWith ⟨true, .flagOnly⟩).params.cken = true ∧ ¬ NoReserved (le32 (cks [0x5D, 0x5E, 0, 0, 0])) ∧
    ¬ NoReserved (le32 (cks [0xDA])) :=
  ⟨witness_clean.1, rfl, by unfold NoReserved; decide, by unfold NoReserved; decide⟩

theorem witness_OneChangedPayloadByteIsDetected : (State.resetWith ⟨true, .flagOnly⟩).Clean ∧
    (State.resetWith ⟨true, .flagOnly⟩).params.cken = true ∧ 0x42#8 ≠ 0x43#8 ∧
    NoReserved (le32 (cks ([0x41] ++ 0x42 :: [0x43]))) :=
  ⟨witness_clean.1, rfl, by decide, by unfold NoReserved; decide⟩

theorem witness_WrongTrailerIsDetected : (State.resetWith ⟨true, .flagOnly⟩).Clean ∧
    (State.resetWith ⟨true, .flagOnly⟩).params.cken = true ∧ 0xC8#32 ≠ cks [0x41, 0x42, 0x43] ∧
    NoReserved (le32 0xC8#32) :=
  ⟨witness_clean.1, rfl, by decide, by unfold NoReserved; decide⟩

theorem witness_MismatchedChecksumModes :
    ((State.resetWith ⟨false, .flagOnly⟩).Clean ∧ (State.resetWith ⟨false, .flagOnly⟩).params.cken = false ∧
      NoReserved (le32 (cks [0x02]))) ∧
    ((State.resetWith ⟨true, .flagOnly⟩).Clean ∧ (State.resetWith ⟨true, .flagOnly⟩).params.cken = true ∧
      [1#8, 2#8, 3#8].length < 4) ∧
    (unle32 [3, 0, 0, 0] = cks [0x02] ∧ [3#8, 0#8, 0#8, 0#8].length = 4) ∧ unle32 [4, 0, 0, 0] ≠ cks [0x02] :=
  ⟨⟨witness_clean.2.2.1, rfl, by unfold NoReserved; decide⟩, ⟨witness_clean.1, rfl, by decide⟩, by decide, by decide⟩

theorem witness_NothingIsDeliveredWithoutEnd : 0xC0#8 ∉ [0xDB#8, 0xDC#8, 0x41#8] := by decide

theorem witness_SwallowedEndMergesFramesUnderFlagOnly :
    ((State.resetWith ⟨false, .flagOnly⟩).Clean ∧ (State.resetWith ⟨false, .flagOnly⟩).params.cken = false ∧
      (State.resetWith ⟨false, .flagOnly⟩).params.escEndPolicy = .flagOnly) ∧
    ((State.resetWith ⟨false, .discard⟩).Clean ∧ (State.resetWith ⟨false, .discard⟩).params.cken = false ∧
      (State.resetWith ⟨false, .discard⟩).params.escEndPolicy = .discard) :=
  ⟨⟨witness_clean.2.2.1, rfl, rfl⟩, witness_clean.2.2.2, rfl, rfl⟩

theorem witness_ZeroLengthPacketsAreDelivered :
    ((State.resetWith ⟨false, .flagOnly⟩).Clean ∧ (State.resetWith ⟨false, .flagOnly⟩).params.cken = false) ∧
    ((State.resetWith ⟨true, .flagOnly⟩).Clean ∧ (State.resetWith ⟨true, .flagOnly⟩).params.cken = true ∧
      (State.resetWith ⟨true, .flagOnly⟩).txAcc = 0) :=
  ⟨⟨witness_clean.2.2.1, rfl⟩, witness_clean.1, rfl, rfl⟩

theorem witness_DeqReturnsAndRemovesTheHead : (qState [[], [0x02]]).pq = [] :: [[0x02]] := by decide

theorem witness_DeqOfEmptyQueueReturnsEmpty : (qState []).pq = [] := by decide

theorem witness_QueueIsFirstInFirstOut : (∀ i ∈ [Instr.rxb 0xC0, .deqHead], i ≠ .reset) ∧
    run [.rxb 0xC0, .deqHead] buffered =
      .next { rxState true .flagOnly [] false false 0 with evt := [.pktEvt], results := [.packet [0x02]] } :=
  ⟨by decide, by rfl⟩

theorem witness_DecoderDoesNotDependOnTheQueue : run (feed [0xC0]) buffered =
    .next { rxState true .flagOnly [] false false 0 with pq := [[0x02]], evt := [.pktEvt] } := by rfl

theorem witness_ResetClearsEveryElement :
    ({ State.reset with supplies := [⟨false, .discard⟩] } : State).supplies = ⟨false, .discard⟩ :: [] ∧
    State.reset.supplies = [] := by decide

theorem witness_EachChannelWritesOnlyItsOwnState :
    (Instr.txbEnd.channel = .tx ∧ exec .txbEnd (txState true 0) =
      .next { txState true 0xC1 with txw := [0xDB, 0xDC] }) ∧
    (Instr.rxbNEndMatch.channel = .rx ∧ exec .rxbNEndMatch buffered =
      .next { rxState true .flagOnly [] false false 0 with pq := [[0x02]], evt := [.pktEvt] }) ∧
    (Instr.deqHead.channel = .q ∧ exec .deqHead (qState [[0x02]]) =
      .next { qState [] with results := [.packet [0x02]] }) ∧
    exec .qcnt (qState []) = .next { qState [] with results := [.count 0] } :=
  ⟨⟨rfl, by rfl⟩, ⟨rfl, by rfl⟩, ⟨rfl, by rfl⟩, by rfl⟩

theorem witness_ParametersAndTracesAreKept : Instr.deqEmpty ≠ .reset ∧
    exec .deqEmpty (qState []) = .next { qState [] with results := [.empty] } := ⟨by decide, by rfl⟩

theorem witness_EveryInterleavingOfTheEncoderGivesOneResult :
    (∀ x ∈ [Instr.txb 0x41], x.channel = .tx) ∧
    (∀ y ∈ [Instr.rxb 0xC0, .deqHead], y.channel = .rx ∨ y.channel = .q) ∧
    Interleaving [Instr.txb 0x41] [.rxb 0xC0, .deqHead] [.rxb 0xC0, .txb 0x41, .deqHead] :=
  ⟨by decide, by decide, .right (.left (.right .nil))⟩

theorem witness_PendingAcknowledgmentIsNeverRead :
    run [.rxb 0xDB, .rxb 0xC0] (rxState true .flagOnly [0x41] false false 0x42) =
      .next (rxState true .flagOnly [0x41] false true 0x42) := by rfl

theorem witness_EveryStepKeepsTheInvariant :
    (rxState true .discard [0x41] true false 0x42).Inv ∧
    step ((rxState true .discard [0x41] true false 0x42).withFetchWord 11 0x3DC) =
      .next (rxState true .discard [0x41, 0xC0] false false 0x103) :=
  ⟨⟨by decide, fun _ => rfl⟩, by rfl⟩

theorem witness_EscapeSubstitution : (0xDC#8 ≠ 0xC0#8 ∧ 0xDC#8 ≠ 0xDB#8) ∧ (escSeq [0x41, 0xC0])[1]? = some 0xDB#8 := by
  decide

theorem witness_ChecksumLaws : [0x41#8, 0x42#8, 0x43#8].Perm [0x43#8, 0x41#8, 0x42#8] := by decide

theorem witness_TrailerAssembly : [0xC0#8, 0#8, 0#8, 0xDB#8].length = 4 ∧ (txState true 3).params.cken = true ∧
    buffered.rxBuf = [0x02#8] ++ [3#8, 0#8, 0#8, 0#8] := by decide

end Sys2Proof.Tests
end

section
/-! What each channel's operations write (R26): one frame lemma per operation, then one per channel. -/

namespace Sys2Proof.Machine

section OperationFrames

variable (b : Byte) (s : State)

theorem txByte_frame : txByte b s = { s with txAcc := (txByte b s).txAcc, txw := (txByte b s).txw } := rfl

theorem txEnd_frame : txEnd s = { s with txAcc := (txEnd s).txAcc, txw := (txEnd s).txw } := by
  rw [txEnd_eq]

/-- Every case of `RXB` is made of operations on the decoder, `PQ` and `EVT` alone. -/
theorem rxByte_frame :
    rxByte b s = { s with
      rxBuf := (rxByte b s).rxBuf, rxEsc := (rxByte b s).rxEsc, rxAcc := (rxByte b s).rxAcc,
      rxAck := (rxByte b s).rxAck, pq := (rxByte b s).pq, evt := (rxByte b s).evt } := by
  rcases rxByte_cases b s with ⟨-, v, h⟩ | ⟨-, -, -, h⟩ | ⟨c, h⟩ | ⟨-, -, h⟩ | ⟨-, -, p, h⟩ | ⟨-, -, -, h⟩ <;>
    rw [h] <;> rfl

/-- `RXB` appends at most one packet to `PQ`: only its accepting case enqueues (R92). -/
theorem rxByte_pq : (rxByte b s).pq = s.pq ∨ ∃ p, (rxByte b s).pq = s.pq ++ [p] := by
  rcases rxByte_cases b s with ⟨-, v, h⟩ | ⟨-, -, -, h⟩ | ⟨c, h⟩ | ⟨-, -, h⟩ | ⟨-, -, p, h⟩ | ⟨-, -, -, h⟩
  case inr.inr.inr.inr.inl => exact .inr ⟨p, by simp [h, State.accept_eq]⟩
  all_goals exact .inl (by simp [h, State.discard_eq])

theorem dequeue_frame : dequeue s = { s with pq := (dequeue s).pq, results := (dequeue s).results } := by
  cases h : s.pq with
  | nil => rw [dequeue_nil h]
  | cons p rest => rw [dequeue_cons h]

/-- `DEQ` removes the head of `PQ`, if there is one (R93, R94). -/
@[simp] theorem dequeue_pq : (dequeue s).pq = s.pq.tail := by
  cases h : s.pq with
  | nil => simp [dequeue_nil h, h]
  | cons p rest => simp [dequeue_cons h]

end OperationFrames

section ChannelCases

variable {i : Instr} (s : State)

/-- Everything an operation of the TX channel can do. -/
theorem exec_of_tx (hi : i.channel = .tx) :
    (∃ b, exec i s = .next (txByte b s)) ∨ exec i s = .next (txEnd s) := by
  rcases exec_cases i s with ⟨b, -, -, -, h⟩ | ⟨-, -, -, h⟩ | ⟨b, hc, -⟩ | ⟨hc, -⟩ | ⟨rfl, -⟩ | ⟨rfl, -⟩
  · exact .inl ⟨b, h⟩
  · exact .inr h
  · simp [hc] at hi
  · simp [hc] at hi
  · simp [Instr.channel] at hi
  · simp [Instr.channel] at hi

/-- Everything an operation of the RX channel can do. -/
theorem exec_of_rx (hi : i.channel = .rx) : ∃ b, exec i s = .next (rxByte b s) := by
  rcases exec_cases i s with ⟨b, hc, -⟩ | ⟨hc, -⟩ | ⟨b, -, -, -, h⟩ | ⟨hc, -⟩ | ⟨rfl, -⟩ | ⟨rfl, -⟩
  · simp [hc] at hi
  · simp [hc] at hi
  · exact ⟨b, h⟩
  · simp [hc] at hi
  · simp [Instr.channel] at hi
  · simp [Instr.channel] at hi

/-- Everything an operation of the Q channel can do. -/
theorem exec_of_q (hi : i.channel = .q) :
    exec i s = .next (dequeue s) ∨ exec i s = .next (s.report (.count s.pq.length)) := by
  rcases exec_cases i s with ⟨b, hc, -⟩ | ⟨hc, -⟩ | ⟨b, hc, -⟩ | ⟨-, -, -, h⟩ | ⟨-, h⟩ | ⟨rfl, -⟩
  · simp [hc] at hi
  · simp [hc] at hi
  · simp [hc] at hi
  · exact .inl h
  · exact .inr h
  · simp [Instr.channel] at hi

end ChannelCases

section ChannelFrames

variable {i : Instr} {s t : State}

theorem exec_tx_frame (h : exec i s = .next t) (hi : i.channel = .tx) :
    t = { s with txAcc := t.txAcc, txw := t.txw } := by
  rcases exec_of_tx s hi with ⟨b, he⟩ | he <;> cases he.symm.trans h
  · exact txByte_frame b s
  · exact txEnd_frame s

theorem exec_rx_frame (h : exec i s = .next t) (hi : i.channel = .rx) :
    t = { s with
      rxBuf := t.rxBuf, rxEsc := t.rxEsc, rxAcc := t.rxAcc, rxAck := t.rxAck, pq := t.pq, evt := t.evt } := by
  obtain ⟨b, he⟩ := exec_of_rx s hi
  cases he.symm.trans h
  exact rxByte_frame b s

theorem exec_rx_pq (h : exec i s = .next t) (hi : i.channel = .rx) : t.pq = s.pq ∨ ∃ p, t.pq = s.pq ++ [p] := by
  obtain ⟨b, he⟩ := exec_of_rx s hi
  cases he.symm.trans h
  exact rxByte_pq b s

theorem exec_q_frame (h : exec i s = .next t) (hi : i.channel = .q) :
    t = { s with pq := t.pq, results := t.results } := by
  rcases exec_of_q s hi with he | he <;> cases he.symm.trans h
  · exact dequeue_frame s
  · rfl

theorem exec_q_pq (h : exec i s = .next t) (hi : i.channel = .q) : t.pq = s.pq ∨ t.pq = s.pq.tail := by
  rcases exec_of_q s hi with he | he <;> cases he.symm.trans h
  · exact .inr (dequeue_pq s)
  · exact .inl rfl

theorem exec_qcnt_pq (h : exec .qcnt s = .next t) : t.pq = s.pq := by
  cases h
  rfl

end ChannelFrames

/-- Settles O51: the frame of each channel's operations, from the list of what a channel's operations can do. -/
theorem eachChannelWritesOnlyItsOwnState : Obligations.EachChannelWritesOnlyItsOwnState := by
  intro i s t h
  exact ⟨exec_tx_frame h, fun hi => ⟨exec_rx_frame h hi, exec_rx_pq h hi⟩,
    fun hi => ⟨exec_q_frame h hi, exec_q_pq h hi⟩, fun hi => exec_qcnt_pq (hi ▸ h)⟩

end Sys2Proof.Machine
end

section
/-! The escape substitution (R43) and the trailer assembly (R48). -/

namespace Sys2Proof.Machine

section Escape

/-- A byte goes out as a pair when it is reserved, and as itself otherwise (R43). -/
theorem esc_pair_or_literal (b : Byte) :
    ((b = END ∨ b = ESC) ∧ ∃ x, (x = ESC_END ∨ x = ESC_ESC) ∧ esc b = [ESC, x]) ∨
    (b ≠ END ∧ b ≠ ESC ∧ esc b = [b]) := by
  by_cases hEnd : b = END
  · exact .inl ⟨.inl hEnd, ESC_END, .inl rfl, hEnd ▸ esc_end⟩
  · by_cases hEsc : b = ESC
    · exact .inl ⟨.inr hEsc, ESC_ESC, .inr rfl, hEsc ▸ esc_esc⟩
    · exact .inr ⟨hEnd, hEsc, esc_literal hEnd hEsc⟩

/-- Each escaped byte costs one wire byte more. -/
theorem escSeq_length (P : List Byte) :
    (escSeq P).length = P.length + P.countP (fun b => b == END || b == ESC) := by
  induction P with
  | nil => rfl
  | cons b P ih =>
    rcases esc_pair_or_literal b with ⟨hb, x, -, h⟩ | ⟨hEnd, hEsc, h⟩
    · simp [h, ih, hb]; omega
    · simp [h, ih, hEnd, hEsc]; omega

theorem end_notMem_esc (b : Byte) : END ∉ esc b := by
  rcases esc_pair_or_literal b with ⟨-, x, rfl | rfl, h⟩ | ⟨hEnd, -, h⟩
  · simp [h]
  · simp [h]
  · simpa [h] using hEnd.symm

theorem end_notMem_escSeq (P : List Byte) : END ∉ escSeq P := by
  simp [escSeq, end_notMem_esc]

/-- An `ESC` on the wire opens a pair: the byte after it is `ESC_END` or `ESC_ESC`. -/
theorem escSeq_esc_followed (P : List Byte) (k : Nat) (h : (escSeq P)[k]? = some ESC) :
    (escSeq P)[k + 1]? = some ESC_END ∨ (escSeq P)[k + 1]? = some ESC_ESC := by
  induction P generalizing k with
  | nil => simp at h
  | cons b P ih =>
    rcases esc_pair_or_literal b with ⟨-, x, hx, hb⟩ | ⟨-, hEsc, hb⟩ <;> rw [escSeq_cons, hb] at h ⊢
    · match k with
      | 0 => simpa using hx
      | 1 =>
        have hxEsc : x = ESC := by simpa using h
        rcases hx with rfl | rfl <;> simp at hxEsc
      | k + 2 => exact ih k h
    · match k with
      | 0 => exact absurd (by simpa using h) hEsc
      | k + 1 => exact ih k h

end Escape

/-- Settles O57: the cases of `esc`, and over a payload the length, the absence of `END` and the pairs `ESC` opens. -/
theorem escapeSubstitution : Obligations.EscapeSubstitution :=
  ⟨esc_end, esc_esc, fun _ => esc_literal, fun P =>
    ⟨List.flatMap_def, escSeq_length P, end_notMem_escSeq P, escSeq_esc_followed P⟩⟩

section Trailer

theorem le32_eq (v : Word32) :
    le32 v = [BitVec.ofNat 8 v.toNat, BitVec.ofNat 8 (v.toNat / 2 ^ 8), BitVec.ofNat 8 (v.toNat / 2 ^ 16),
      BitVec.ofNat 8 (v.toNat / 2 ^ 24)] := by
  simp only [le32, BitVec.extractLsb', Nat.shiftRight_eq_div_pow, Nat.pow_zero, Nat.div_one]

/-- `unle32` of four bytes is their little-endian value: it fits 32 bits, so nothing wraps. -/
theorem unle32_toNat (t0 t1 t2 t3 : Byte) :
    (unle32 [t0, t1, t2, t3]).toNat = t0.toNat + t1.toNat * 2 ^ 8 + t2.toNat * 2 ^ 16 + t3.toNat * 2 ^ 24 := by
  simp [unle32, zext32]
  omega

theorem unle32_le32 (v : Word32) : unle32 (le32 v) = v := by
  apply BitVec.eq_of_toNat_eq
  rw [le32_eq, unle32_toNat]
  simp only [BitVec.toNat_ofNat]
  omega

/-- A four-byte list is determined by its little-endian value, digit by digit. -/
theorem le32_unle32 {t : List Byte} (ht : t.length = 4) : le32 (unle32 t) = t := by
  obtain ⟨t0, t1, t2, t3, rfl⟩ := List.length_eq_four.mp ht
  rw [le32_eq, unle32_toNat]
  simp only [List.cons.injEq, and_true, ← BitVec.toNat_inj, BitVec.toNat_ofNat]
  omega

/-- With `CKEN = 1`, `TXEND` emits `le32(TX_ACC)` and one `END`. -/
theorem txEnd_txw {s : State} (h : s.params.cken = true) : (txEnd s).txw = s.txw ++ le32 s.txAcc ++ [END] := by
  simp [txEnd_eq, h]

end Trailer

/-- Settles O59: both directions of the trailer through the little-endian value of its four bytes, and the two places
that use it, `TXEND` and the received checksum. -/
theorem trailerAssembly : Obligations.TrailerAssembly :=
  ⟨le32_eq, unle32_toNat, unle32_le32, fun _ => le32_unle32, fun s h => ⟨txEnd s, execTxendCk1_eq s, txEnd_txw h⟩,
    fun _ _ _ => receivedCks_of_append⟩

end Sys2Proof.Machine
end

section
/-! `TXB` (40_tx_encoder.md section 1): its request word, its effect on every byte, and the two ways its byte goes out. -/

namespace Sys2Proof.Machine

/-- `TX_ACC` after one logical byte, as an integer taken modulo 2^32 (R59). -/
theorem add32_contrib (a : Word32) (b : Byte) : add32 a (contrib b) = BitVec.ofNat 32 (a.toNat + b.toNat + 1) := by
  apply BitVec.eq_of_toNat_eq
  simp [add32, contrib_eq, Nat.add_assoc]

/-- The request word of `TXB` (R55): the operation number 1 stands above the eight bits of the byte. -/
theorem encode_txb (b : Byte) : encode (.txb b) = BitVec.ofNat 11 (0x100 + b.toNat) := by
  have hword : (encode (.txb b)).toNat = 0x100 + b.toNat := by
    simp only [encode, Instr.opNumber, Instr.operand, BitVec.toNat_append]
    exact (Nat.shiftLeft_add_eq_or_of_lt b.isLt 1).symm
  rw [← hword, BitVec.ofNat_toNat, BitVec.setWidth_eq]

/-- `TXB` whatever its byte (R59): `esc(b)` goes out, and `TX_ACC` grows by `b + 1`. -/
theorem exec_txb_eq (b : Byte) (s : State) :
    exec (.txb b) s = .next { s with
      txw := s.txw ++ esc b, txAcc := BitVec.ofNat 32 (s.txAcc.toNat + b.toNat + 1) } := by
  rw [exec_txb, txByte_eq, add32_contrib]

section Rows

/-! Each row of `TXB` has the effect of `TXB` itself on the row's byte (R60, R61, R62). -/

theorem exec_txbEnd (s : State) : exec .txbEnd s = exec (.txb END) s := execTxbEnd_eq s

theorem exec_txbEsc (s : State) : exec .txbEsc s = exec (.txb ESC) s := execTxbEsc_eq s

theorem exec_txbLit (b : Byte) (s : State) : exec (.txbLit b) s = exec (.txb b) s := execTxbLit_eq b s

end Rows

/-- Settles O12: the word, and the effect of `TXB` with `esc(b)` written out by its cases. -/
theorem txbEmitsEscapeAndAddsContribution : Obligations.TxbEmitsEscapeAndAddsContribution :=
  fun b s => ⟨encode_txb b, exec_txb_eq b s⟩

/-- Settles O13: `TXB` at the two reserved bytes, where `esc` gives a pair, and their rows. -/
theorem txbOfReservedByteEmitsEscapePair : Obligations.TxbOfReservedByteEmitsEscapePair := fun s =>
  ⟨rfl, rfl, (exec_txbEnd s).trans (exec_txb_eq END s), (exec_txbEnd s).symm,
    (exec_txbEsc s).trans (exec_txb_eq ESC s), (exec_txbEsc s).symm⟩

/-- Settles O14: `TXB` at a byte that `esc` leaves as it is, and its row. -/
theorem txbOfOtherByteEmitsItUnchanged : Obligations.TxbOfOtherByteEmitsItUnchanged := by
  intro b s hEnd hEsc
  have hlit : esc b = [b] := esc_literal hEnd hEsc
  exact ⟨encode_txb b, by rw [exec_txbLit, exec_txb_eq, hlit], (exec_txbLit b s).symm⟩

end Sys2Proof.Machine
end

section
/-! `RXB` byte by byte (41_rx_decoder.md sections 2 and 3): the request words, and the effect of each row whose byte is
no frame boundary. -/

namespace Sys2Proof.Machine

/-- A request word as a number (R55): the operation number stands above the eight bits of the operand. -/
theorem encode_eq_ofNat {i : Instr} {base : Nat} (hop : i.opNumber.toNat * 2 ^ 8 = base) :
    encode i = BitVec.ofNat 11 (base + i.operand.toNat) := by
  have hword : (encode i).toNat = base + i.operand.toNat := by
    rw [encode, BitVec.toNat_append, ← Nat.shiftLeft_add_eq_or_of_lt i.operand.isLt, Nat.shiftLeft_eq, hop]
  rw [← hword, BitVec.ofNat_toNat, BitVec.setWidth_eq]

/-- A row that is run by its request word (R58) has whatever effect `RXB` has on the row's byte. -/
theorem exec_row_of_rxByte {i : Instr} {b : Byte} {s t : State} (hrow : exec i s = .next (rxByte b s))
    (heffect : rxByte b s = t) : exec i s = .next t ∧ exec (.rxb b) s = exec i s :=
  ⟨hrow.trans (congrArg _ heffect), hrow.symm⟩

/-- `append(v)` (R73), with `RX_ACC` as an integer taken modulo 2^32. -/
theorem State.append_eq (v : Byte) (s : State) :
    s.append v = { s with rxBuf := s.rxBuf ++ [v], rxAcc := BitVec.ofNat 32 (s.rxAcc.toNat + v.toNat + 1) } := by
  rw [State.append, add32_contrib]

/-- Settles O21: each of the two second bytes takes its case of `RXB`, which clears `RX_ESC` and appends. -/
theorem rxbUnescapesAValidPair : Obligations.RxbUnescapesAValidPair := by
  intro s hEsc
  obtain ⟨hEnd, hEnd'⟩ := exec_row_of_rxByte (i := .rxbEEscEnd) (execRxbEEscEnd_eq s)
    ((rxByte_escEnd hEsc).trans (State.append_eq 0xC0#8 (s.setEsc false)))
  obtain ⟨hEscEsc, hEscEsc'⟩ := exec_row_of_rxByte (i := .rxbEEscEsc) (execRxbEEscEsc_eq s)
    ((rxByte_escEsc hEsc).trans (State.append_eq 0xDB#8 (s.setEsc false)))
  exact ⟨rfl, rfl, hEnd, hEnd', hEscEsc, hEscEsc'⟩

/-- Settles O22: the case of `END` in an escape under `FLAG_ONLY` writes the two flags. -/
theorem rxbEndInEscapeSetsAckOnly : Obligations.RxbEndInEscapeSetsAckOnly := fun s hEsc hPolicy =>
  ⟨rfl, exec_row_of_rxByte (execRxbEEndFlag_eq s) (rxByte_endFlag hEsc hPolicy)⟩

/-- Settles O23: the case of `END` in an escape under `DISCARD` is a discard. -/
theorem rxbEndInEscapeDiscards : Obligations.RxbEndInEscapeDiscards := fun s hEsc hPolicy =>
  ⟨rfl, exec_row_of_rxByte (execRxbEEndDiscard_eq s)
    ((rxByte_endDiscard hEsc hPolicy).trans (s.discard_eq .badEscape))⟩

/-- Settles O25: the case of `ESC` outside an escape writes `RX_ESC`. -/
theorem rxbEscSetsEscapePending : Obligations.RxbEscSetsEscapePending := fun s hEsc =>
  ⟨rfl, exec_row_of_rxByte (execRxbNEsc_eq s) (rxByte_esc hEsc)⟩

/-- Settles O30: the case of an ordinary byte appends it. -/
theorem rxbDataIsAppended : Obligations.RxbDataIsAppended := by
  intro b s hEsc hNotEsc hNotEnd
  have hword : encode (.rxbNData b) = BitVec.ofNat 11 (0x300 + b.toNat) :=
    encode_eq_ofNat (by simp [Instr.opNumber])
  have heffect : rxByte b s = { s with
      rxBuf := s.rxBuf ++ [b], rxAcc := BitVec.ofNat 32 (s.rxAcc.toNat + b.toNat + 1) } :=
    (rxByte_data hEsc hNotEsc hNotEnd).trans (s.append_eq b)
  exact ⟨hword, exec_row_of_rxByte (execRxbNData_eq s b) heffect⟩

end Sys2Proof.Machine
end

section
/-! The frame boundary (R80 to R85): `RXB 0xC0` with no escape pending, by the checksum mode, the length and the
checksum test. -/

namespace Sys2Proof.Machine

section Trailer

/-- The checksum contribution of a trailer, an integer in 4..1024 (R82): nothing wraps. -/
theorem cks_trailer_toNat (t0 t1 t2 t3 : Byte) :
    (cks [t0, t1, t2, t3]).toNat = t0.toNat + t1.toNat + t2.toNat + t3.toNat + 4 := by
  simp [cks]
  omega

/-- The checksum test of R82 on integers: the little-endian value of the trailer against the accumulator less the
trailer's contribution, modulo 2^32. -/
theorem trailer_checks_iff (acc : Word32) (t0 t1 t2 t3 : Byte) :
    unle32 [t0, t1, t2, t3] = sub32 acc (cks [t0, t1, t2, t3]) ↔
      t0.toNat + t1.toNat * 2 ^ 8 + t2.toNat * 2 ^ 16 + t3.toNat * 2 ^ 24 =
        (acc.toNat + 2 ^ 32 - (t0.toNat + t1.toNat + t2.toNat + t3.toNat + 4)) % 2 ^ 32 := by
  have hexp : (sub32 acc (cks [t0, t1, t2, t3])).toNat =
      (acc.toNat + 2 ^ 32 - (t0.toNat + t1.toNat + t2.toNat + t3.toNat + 4)) % 2 ^ 32 := by
    rw [sub32, BitVec.toNat_sub, cks_trailer_toNat]
    congr 1
    omega
  rw [← BitVec.toNat_inj, unle32_toNat, hexp]

end Trailer

section Boundary

variable {s : State} {P t : List Byte}

theorem rxByte_end_short (hEsc : s.rxEsc = false) (hCken : s.params.cken = true) (hShort : s.rxBuf.length < 4) :
    rxByte END s = s.discard .truncatedTrailer :=
  (rxByte_boundary hEsc).trans (rxBoundary_short hCken ((bufShort_iff s).mpr hShort))

theorem rxByte_end_noCheck (hEsc : s.rxEsc = false) (hCken : s.params.cken = false) :
    rxByte END s = s.accept s.rxBuf :=
  (rxByte_boundary hEsc).trans (rxBoundary_noCheck hCken)

/-- A buffer that ends in a trailer passes the length test (R81). -/
theorem bufShort_of_append (hBuf : s.rxBuf = P ++ t) (ht : t.length = 4) : bufShort s = false := by
  simp [bufShort, hBuf, ht]

/-- The checksum test on a buffer that ends in a trailer (R82). -/
theorem ckPass_iff_of_append (hBuf : s.rxBuf = P ++ t) (ht : t.length = 4) :
    ckPass s = true ↔ unle32 t = sub32 s.rxAcc (cks t) := by
  rw [ckPass_iff, receivedCks_of_append hBuf ht, expectedCks_of_append hBuf ht]

theorem rxByte_end_mismatch (hEsc : s.rxEsc = false) (hCken : s.params.cken = true) (hBuf : s.rxBuf = P ++ t)
    (ht : t.length = 4) (hCks : unle32 t ≠ sub32 s.rxAcc (cks t)) :
    rxByte END s = s.discard .checksumMismatch := by
  have hFail : ckPass s = false := by
    rw [← Bool.not_eq_true, ckPass_iff_of_append hBuf ht]
    exact hCks
  rw [rxByte_boundary hEsc, rxBoundary_mismatch hCken (bufShort_of_append hBuf ht) hFail, rxMismatch]

theorem rxByte_end_match (hEsc : s.rxEsc = false) (hCken : s.params.cken = true) (hBuf : s.rxBuf = P ++ t)
    (ht : t.length = 4) (hCks : unle32 t = sub32 s.rxAcc (cks t)) : rxByte END s = s.accept P := by
  have hPass : ckPass s = true := (ckPass_iff_of_append hBuf ht).mpr hCks
  rw [rxByte_boundary hEsc, rxBoundary_match hCken (bufShort_of_append hBuf ht) hPass, rxMatch, hBuf,
    payloadPart_append ht]

end Boundary

/-- Settles O27: the test written out fails, so the boundary takes the mismatch case, a discard. -/
theorem rxbChecksumMismatchIsDiscarded : Obligations.RxbChecksumMismatchIsDiscarded := by
  intro s P t0 t1 t2 t3 hEsc hCken hBuf hCks
  have heffect : rxByte END s = s.discard .checksumMismatch :=
    rxByte_end_mismatch hEsc hCken hBuf rfl ((trailer_checks_iff s.rxAcc t0 t1 t2 t3).not.mpr hCks)
  exact ⟨rfl, exec_row_of_rxByte (execRxbNEndMismatch_eq s) (heffect.trans (s.discard_eq _))⟩

/-- Settles O28: the test written out passes, so the boundary accepts the bytes before the trailer. -/
theorem rxbChecksumMatchDeliversThePayload : Obligations.RxbChecksumMatchDeliversThePayload := by
  intro s P t0 t1 t2 t3 hEsc hCken hBuf hCks
  have heffect : rxByte END s = s.accept P :=
    rxByte_end_match hEsc hCken hBuf rfl ((trailer_checks_iff s.rxAcc t0 t1 t2 t3).mpr hCks)
  exact ⟨rfl, exec_row_of_rxByte (execRxbNEndMatch_eq s) (heffect.trans (s.accept_eq P))⟩

/-- Settles O26: the length test fails, a discard. -/
theorem rxbShortFrameIsDiscarded : Obligations.RxbShortFrameIsDiscarded := fun s hEsc hCken hShort =>
  ⟨rfl, exec_row_of_rxByte (execRxbNEndShort_eq s)
    ((rxByte_end_short hEsc hCken hShort).trans (s.discard_eq .truncatedTrailer))⟩

/-- Settles O29: with `CKEN = 0` the boundary accepts the whole buffer. -/
theorem rxbWithoutChecksumDeliversTheBuffer : Obligations.RxbWithoutChecksumDeliversTheBuffer := fun s hEsc hCken =>
  ⟨rfl, exec_row_of_rxByte (execRxbNEndNock_eq s)
    ((rxByte_end_noCheck hEsc hCken).trans (s.accept_eq s.rxBuf))⟩

end Sys2Proof.Machine
end

section
/-! Zero-length packets (R90): a trailer fed byte by byte, accepts that leave a clean decoder as it was, and the
frame of the empty payload. -/

namespace Sys2Proof.Machine

/-- Bytes that are not reserved, fed outside an escape, are buffered and summed as they are (R86). -/
theorem run_feed_append_of_noReserved {W : List Byte} (hW : NoReserved W) (V : List Byte) {s : State}
    (hEsc : s.rxEsc = false) :
    run (feed (W ++ V)) s = run (feed V) { s with rxBuf := s.rxBuf ++ W, rxAcc := s.rxAcc + cks W } := by
  induction W generalizing s with
  | nil => simp
  | cons b W ih =>
    obtain ⟨⟨hEnd, hNotEsc⟩, hW'⟩ := List.forall_mem_cons.mp hW
    have hbyte : rxByte b s = s.append b := rxByte_data hEsc hNotEsc hEnd
    rw [List.cons_append, feed_cons, hbyte, ih hW' (s := s.append b) hEsc]
    simp [State.append, add32, cks_cons, BitVec.add_assoc]

/-- A trailer that states the accumulated checksum, then `END`, delivers what is buffered (R83): the test takes back
what the trailer's own bytes added, so it compares with the accumulator from before them. -/
theorem run_feed_trailer_end {t : List Byte} (hT : NoReserved t) (ht : t.length = 4) {s : State}
    (hEsc : s.rxEsc = false) (hCken : s.params.cken = true) (hCks : unle32 t = s.rxAcc) :
    run (feed (t ++ [END])) s = .next (s.accept s.rxBuf) := by
  have htest : unle32 t = sub32 (s.rxAcc + cks t) (cks t) := by rw [hCks, sub32, BitVec.add_sub_cancel]
  rw [run_feed_append_of_noReserved hT _ hEsc, feed_cons]
  exact congrArg _ (rxByte_end_match (P := s.rxBuf) hEsc hCken rfl ht htest)

section Clean

variable {s : State}

theorem State.Clean.resetDecoder_eq (h : s.Clean) : s.resetDecoder = s := by
  cases s
  obtain ⟨rfl, rfl, rfl, rfl⟩ := h
  rfl

/-- In a clean decoder an accept only enqueues and notifies (R85). -/
theorem State.Clean.accept_eq (h : s.Clean) (p : Packet) :
    s.accept p = { s with pq := s.pq ++ [p], evt := s.evt ++ [.pktEvt] } :=
  State.Clean.resetDecoder_eq (s := (s.enqueue p).event .pktEvt) h

end Clean

/-- `FRAME []` is `TXEND` alone (R66). -/
theorem run_frame_nil (s : State) : run (frame []) s = .next (txEnd s) :=
  run_cons (i := .txendCk1) (execTxendCk1_eq s) []

/-- Settles O43: in the clean state `END` finds the empty buffer; with `CKEN = 1` the four zero bytes are the trailer of
the empty payload, which `TXEND` emits from `TX_ACC = 0`. -/
theorem zeroLengthPacketsAreDelivered : Obligations.ZeroLengthPacketsAreDelivered := by
  intro s hClean
  have ⟨hBuf, hEsc, _, hAcc⟩ := hClean
  have haccept : s.accept s.rxBuf = { s with pq := s.pq ++ [[]], evt := s.evt ++ [.pktEvt] } :=
    (congrArg (s.accept ·) hBuf).trans (State.Clean.accept_eq hClean [])
  refine ⟨fun hCken => ?noCheck, fun hCken => ⟨?checked, fun hTx => ?emitted⟩⟩
  case noCheck => exact congrArg _ ((rxByte_end_noCheck hEsc hCken).trans haccept)
  case checked =>
    have hzeros : NoReserved (le32 0) := by
      unfold NoReserved
      decide
    have hfed : run (feed (le32 0 ++ [END])) s = .next (s.accept s.rxBuf) :=
      run_feed_trailer_end hzeros rfl hEsc hCken ((unle32_le32 0).trans hAcc.symm)
    exact hfed.trans (congrArg _ haccept)
  case emitted =>
    have hwire : le32 0#32 ++ [END] = [0x00#8, 0x00#8, 0x00#8, 0x00#8, 0xC0#8] := rfl
    simp [run_frame_nil, txEnd_eq, hCken, hTx, hwire]

end Sys2Proof.Machine
end

section
/-! The results of the queue's operations (R93 to R95), and the first-in first-out law of runs without `RESET` (R96). -/

namespace Sys2Proof.Machine

section QueueRows

variable (s : State)

theorem exec_deqHead : exec .deqHead s = .next (dequeue s) := execDeqHead_eq s

theorem exec_deqEmpty : exec .deqEmpty s = .next (dequeue s) := execDeqEmpty_eq s

theorem exec_qcnt : exec .qcnt s = .next (s.report (.count s.pq.length)) := rfl

end QueueRows

/-- Settles O44: both rows are `DEQ`, which takes its case of a queue with a head. -/
theorem deqReturnsAndRemovesTheHead : Obligations.DeqReturnsAndRemovesTheHead := fun _ _ s hPq =>
  ⟨rfl, (exec_deqHead s).trans (congrArg _ (dequeue_cons hPq)), (exec_deqEmpty s).trans (exec_deqHead s).symm⟩

/-- Settles O45: both rows are `DEQ`, which takes its case of an empty queue. -/
theorem deqOfEmptyQueueReturnsEmpty : Obligations.DeqOfEmptyQueueReturnsEmpty := fun s hPq =>
  ⟨rfl, (exec_deqEmpty s).trans (congrArg _ (dequeue_nil hPq)), (exec_deqHead s).trans (exec_deqEmpty s).symm,
    fun _ => Result.noConfusion⟩

/-- Settles O46: `QCNT` reports the length of `PQ`. -/
theorem qcntReturnsTheNumberOfPackets : Obligations.QcntReturnsTheNumberOfPackets := fun s => ⟨rfl, exec_qcnt s⟩

/-- `RESET` is the only operation of all channels. -/
theorem eq_reset_of_channel_all {i : Instr} (hi : i.channel = .all) : i = .reset := by
  cases i with
  | reset => rfl
  | _ => cases hi

section Enqueued

variable {i : Instr} {s t : State}

theorem enqueuedBy_of_ne_rx (hi : i.channel ≠ .rx) : enqueuedBy i s = [] := by
  unfold enqueuedBy
  split
  · exact absurd ‹_› hi
  · rfl

theorem enqueuedBy_of_rx (h : exec i s = .next t) (hi : i.channel = .rx) :
    enqueuedBy i s = t.pq.drop s.pq.length := by
  simp only [enqueuedBy, hi, h]

/-- An operation of the RX channel leaves `PQ` as it was, with what it enqueued at the tail (R92). -/
theorem exec_rx_pq_eq (h : exec i s = .next t) (hi : i.channel = .rx) : t.pq = s.pq ++ enqueuedBy i s := by
  rw [enqueuedBy_of_rx h hi]
  rcases exec_rx_pq h hi with hsame | ⟨p, happ⟩
  · simp [hsame]
  · simp [happ]

theorem enqueuedIn_cons (h : exec i s = .next t) (is : List Instr) :
    enqueuedIn (i :: is) s = enqueuedBy i s ++ enqueuedIn is t := by
  simp only [enqueuedIn, h]

theorem packetsOf_append (R R' : List Result) : packetsOf (R ++ R') = packetsOf R ++ packetsOf R' := by
  induction R with
  | nil => rfl
  | cons r R ih => cases r <;> simp [packetsOf, ih]

end Enqueued

/-- From `s` to `t`, with the packets `E` enqueued on the way, no packet is lost, repeated or reordered: those returned,
then those still in `PQ`, are those that were in `PQ`, then `E`. -/
def QueueConserved (s t : State) (E : List Packet) : Prop :=
  ∃ R, t.results = s.results ++ R ∧ packetsOf R ++ t.pq = s.pq ++ E

section Conserved

variable {s t u : State} {E E' : List Packet}

/-- Nothing is returned and `E` is appended. -/
theorem QueueConserved.of_append (hResults : t.results = s.results) (hPq : t.pq = s.pq ++ E) : QueueConserved s t E :=
  ⟨[], by simp [hResults], hPq⟩

theorem QueueConserved.trans (h : QueueConserved s t E) (h' : QueueConserved t u E') :
    QueueConserved s u (E ++ E') := by
  obtain ⟨R, hResults, hPq⟩ := h
  obtain ⟨R', hResults', hPq'⟩ := h'
  refine ⟨R ++ R', by rw [hResults', hResults, List.append_assoc], ?_⟩
  calc packetsOf (R ++ R') ++ u.pq
      = packetsOf R ++ (packetsOf R' ++ u.pq) := by rw [packetsOf_append, List.append_assoc]
    _ = (packetsOf R ++ t.pq) ++ E' := by rw [hPq', List.append_assoc]
    _ = s.pq ++ (E ++ E') := by rw [hPq, List.append_assoc]

/-- `DEQ` moves the head of `PQ`, if there is one, to the packets returned. -/
theorem queueConserved_dequeue (s : State) : QueueConserved s (dequeue s) [] := by
  cases hPq : s.pq with
  | nil => exact ⟨[.empty], by simp [dequeue_nil hPq], by simp [packetsOf, hPq]⟩
  | cons p rest => exact ⟨[.packet p], by simp [dequeue_cons hPq], by simp [packetsOf, dequeue_cons hPq, hPq]⟩

theorem queueConserved_report_count (n : Nat) (s : State) : QueueConserved s (s.report (.count n)) [] :=
  ⟨[.count n], rfl, (List.append_nil _).symm⟩

/-- The law for one operation, by its channel: TX leaves the queue alone, RX appends what it enqueues, Q returns what it
removes. -/
theorem queueConserved_exec {i : Instr} (h : exec i s = .next t) (hi : i ≠ .reset) :
    QueueConserved s t (enqueuedBy i s) := by
  cases hc : i.channel with
  | tx =>
    rw [enqueuedBy_of_ne_rx (by simp [hc])]
    have hframe := exec_tx_frame h hc
    exact .of_append (by rw [hframe]) (by rw [hframe, List.append_nil])
  | rx => exact .of_append (by rw [exec_rx_frame h hc]) (exec_rx_pq_eq h hc)
  | q =>
    rw [enqueuedBy_of_ne_rx (by simp [hc])]
    rcases exec_of_q s hc with he | he <;> cases he.symm.trans h
    · exact queueConserved_dequeue s
    · exact queueConserved_report_count s.pq.length s
  | all => exact absurd (eq_reset_of_channel_all hc) hi

/-- The law for a run: the laws of its operations, one after the other. -/
theorem queueConserved_run {is : List Instr} (hNoReset : ∀ i ∈ is, i ≠ .reset) (h : run is s = .next t) :
    QueueConserved s t (enqueuedIn is s) := by
  induction is generalizing s with
  | nil =>
    cases h
    exact .of_append rfl (List.append_nil _).symm
  | cons i is ih =>
    obtain ⟨hi, hRest⟩ := List.forall_mem_cons.mp hNoReset
    cases he : exec i s with
    | next u =>
      rw [run_cons he] at h
      rw [enqueuedIn_cons he]
      exact (queueConserved_exec he hi).trans (ih hRest h)
    | fault f => cases f
    | refused r => simp [run, he] at h

end Conserved

/-- Settles O47: the law is kept by each operation but `RESET`, so it holds of the run. -/
theorem queueIsFirstInFirstOut : Obligations.QueueIsFirstInFirstOut := fun _ _ _ => queueConserved_run

end Sys2Proof.Machine
end

section
/-! The decoder never reads `PQ` (R97): packets put in front of the queue before a run of `RXB` are in front of it after
the run, and nothing else is different. -/

namespace Sys2Proof.Machine

/-- The same state with the packets `q` in front of the queue. -/
def State.prependQueue (q : List Packet) (s : State) : State := { s with pq := q ++ s.pq }

section PrependQueue

variable (q : List Packet) (s : State)

/-- An accept appends at the tail, whatever stands in front. -/
theorem State.accept_prependQueue (p : Packet) : (s.prependQueue q).accept p = (s.accept p).prependQueue q := by
  simp [State.accept_eq, State.prependQueue]

/-- No test of the boundary reads `PQ`, so both sides take the same case. -/
theorem rxBoundary_prependQueue : rxBoundary (s.prependQueue q) = (rxBoundary s).prependQueue q := by
  cases hCken : s.params.cken with
  | false =>
    rw [rxBoundary_noCheck hCken, rxBoundary_noCheck (s := s.prependQueue q) hCken]
    exact s.accept_prependQueue q s.rxBuf
  | true =>
    cases hShort : bufShort s with
    | true => rw [rxBoundary_short hCken hShort, rxBoundary_short (s := s.prependQueue q) hCken hShort]; rfl
    | false =>
      cases hPass : ckPass s with
      | false =>
        rw [rxBoundary_mismatch hCken hShort hPass, rxBoundary_mismatch (s := s.prependQueue q) hCken hShort hPass]
        rfl
      | true =>
        rw [rxBoundary_match hCken hShort hPass, rxBoundary_match (s := s.prependQueue q) hCken hShort hPass]
        exact s.accept_prependQueue q (payloadPart s.rxBuf)

/-- With an escape pending nothing is enqueued. -/
theorem rxByte_prependQueue_of_escaped {s : State} (hEsc : s.rxEsc = true) (b : Byte) :
    rxByte b (s.prependQueue q) = (rxByte b s).prependQueue q := by
  by_cases hEscEnd : b = ESC_END
  · rw [hEscEnd, rxByte_escEnd hEsc, rxByte_escEnd (s := s.prependQueue q) hEsc]; rfl
  by_cases hEscEsc : b = ESC_ESC
  · rw [hEscEsc, rxByte_escEsc hEsc, rxByte_escEsc (s := s.prependQueue q) hEsc]; rfl
  by_cases hEnd : b = END
  · subst hEnd
    cases hPolicy : s.params.escEndPolicy with
    | flagOnly => rw [rxByte_endFlag hEsc hPolicy, rxByte_endFlag (s := s.prependQueue q) hEsc hPolicy]; rfl
    | discard => rw [rxByte_endDiscard hEsc hPolicy, rxByte_endDiscard (s := s.prependQueue q) hEsc hPolicy]; rfl
  · rw [rxByte_bad hEsc hEscEnd hEscEsc hEnd, rxByte_bad (s := s.prependQueue q) hEsc hEscEnd hEscEsc hEnd]; rfl

/-- `RXB` does the same to the state with other packets in front of its queue. -/
theorem rxByte_prependQueue (b : Byte) : rxByte b (s.prependQueue q) = (rxByte b s).prependQueue q := by
  cases hEsc : s.rxEsc with
  | true => exact rxByte_prependQueue_of_escaped q hEsc b
  | false =>
    by_cases hIsEsc : b = ESC
    · rw [hIsEsc, rxByte_esc hEsc, rxByte_esc (s := s.prependQueue q) hEsc]; rfl
    by_cases hEnd : b = END
    · rw [hEnd, rxByte_boundary hEsc, rxByte_boundary (s := s.prependQueue q) hEsc, rxBoundary_prependQueue]
    · rw [rxByte_data hEsc hIsEsc hEnd, rxByte_data (s := s.prependQueue q) hEsc hIsEsc hEnd]; rfl

end PrependQueue

theorem run_feed_prependQueue {W : List Byte} {s t : State} (q : List Packet) (h : run (feed W) s = .next t) :
    run (feed W) (s.prependQueue q) = .next (t.prependQueue q) := by
  induction W generalizing s with
  | nil =>
    cases h
    rfl
  | cons b W ih =>
    rw [feed_cons] at h ⊢
    rw [rxByte_prependQueue]
    exact ih h

/-- A run of `RXB` is total (R87). -/
theorem run_feed_total (W : List Byte) (s : State) : ∃ t, run (feed W) s = .next t := by
  induction W generalizing s with
  | nil => exact ⟨s, rfl⟩
  | cons b W ih =>
    rw [feed_cons]
    exact ih (rxByte b s)

/-- A run of `RXB` is the run on an empty queue, with the packets that were in `PQ` in front. -/
theorem run_feed_from_emptyQueue (W : List Byte) (s : State) :
    ∃ u : State, ∀ q, run (feed W) { s with pq := q } = .next (u.prependQueue q) := by
  obtain ⟨u, hu⟩ := run_feed_total W s.clearQueue
  refine ⟨u, fun q => ?_⟩
  have hstart : ({ s with pq := q } : State) = s.clearQueue.prependQueue q := by
    simp [State.clearQueue, State.prependQueue]
  rw [hstart]
  exact run_feed_prependQueue q hu

/-- Settles O48: both runs are the run on an empty queue with the queue's contents in front, so they append the packets
of that run. -/
theorem decoderDoesNotDependOnTheQueue : Obligations.DecoderDoesNotDependOnTheQueue := by
  intro W s t q h
  obtain ⟨u, hu⟩ := run_feed_from_emptyQueue W s
  have ht : t = u.prependQueue s.pq := Host.Outcome.next.inj (h.symm.trans (hu s.pq))
  subst ht
  exact ⟨u.pq, rfl, hu q⟩

end Sys2Proof.Machine
end

section
/-! Events (60_exceptions.md): the three things a step can do to the trace `EVT`, and what a discard leaves unchanged
(R100). -/

namespace Sys2Proof.Machine

/-- `RXB` emits no event except where it accepts (R85) or discards (R100). -/
theorem rxByte_event_cases (b : Byte) (s : State) :
    (rxByte b s).evt = s.evt ∨ (∃ p, rxByte b s = s.accept p) ∨ (∃ c, rxByte b s = s.discard c) := by
  rcases rxByte_cases b s with ⟨-, v, h⟩ | ⟨-, -, -, h⟩ | hdiscard | ⟨-, -, h⟩ | ⟨-, -, haccept⟩ | ⟨-, -, -, h⟩
  case inr.inr.inl => exact .inr (.inr hdiscard)
  case inr.inr.inr.inr.inl => exact .inr (.inl haccept)
  all_goals exact .inl (by simp [h])

section Step

variable {i : Instr} {s t : State}

/-- Only an operation of the RX channel emits events. -/
theorem exec_evt_of_ne_rx (h : exec i s = .next t) (hi : i.channel ≠ .rx) : t.evt = s.evt := by
  cases hc : i.channel with
  | tx => rw [exec_tx_frame h hc]
  | rx => exact absurd hc hi
  | q => rw [exec_q_frame h hc]
  | all =>
    cases eq_reset_of_channel_all hc
    cases h
    rfl

/-- A step emits nothing, or is an accept, or is a discard. -/
theorem exec_event_cases (h : exec i s = .next t) :
    t.evt = s.evt ∨ (∃ p, t = s.accept p) ∨ (∃ c, t = s.discard c) := by
  by_cases hi : i.channel = .rx
  · obtain ⟨b, he⟩ := exec_of_rx s hi
    cases he.symm.trans h
    exact rxByte_event_cases b s
  · exact .inl (exec_evt_of_ne_rx h hi)

/-- A step that emits `RX_DROP(c)` is the discard for the cause `c`. -/
theorem eq_discard_of_evt {c : DropCause} (h : exec i s = .next t) (hevt : t.evt = s.evt ++ [.rxDrop c]) :
    t = s.discard c := by
  rcases exec_event_cases h with hsilent | ⟨p, rfl⟩ | ⟨c', rfl⟩
  · simp [hsilent] at hevt
  · simp [State.accept_eq] at hevt
  · have hc : c' = c := by simpa [State.discard_eq] using hevt
    rw [hc]

end Step

/-- Settles O33: a step that emits `RX_DROP` is a discard, and a discard writes the decoder and the trace alone. -/
theorem discardChangesTheDecoderOnly : Obligations.DiscardChangesTheDecoderOnly := fun _ s _ c h hevt =>
  (eq_discard_of_evt h hevt).trans (s.discard_eq c)

end Sys2Proof.Machine
end

section
/-! The decoder (R55 to R58, 30_encoding.md): what a word decodes to by its two fields, and how that answers to the
encoder. -/

namespace Sys2Proof

section GroupOfRow

variable {c : Ctx} {i : Instr}

theorem opNumber_of_txbCase (hGroup : i.group = .txbCase) : i.opNumber = 1#3 := by
  cases i with
  | txbEnd | txbEsc => rfl
  | txbLit b => rfl
  | _ => cases hGroup

theorem opNumber_of_rxbCase (hGroup : i.group = .rxbCase) : i.opNumber = 3#3 := by
  cases i with
  | rxbEEscEnd | rxbEEscEsc | rxbEEndFlag | rxbEEndDiscard => rfl
  | rxbNEsc | rxbNEndShort | rxbNEndMismatch | rxbNEndMatch | rxbNEndNock => rfl
  | rxbEOther b | rxbNData b => rfl
  | _ => cases hGroup

/-- A row of format `OP`: its operation number leads to it, and where two rows share the number its condition does. -/
theorem decodeInGroup_op_encode (hGroup : i.group = .op) (hSel : i.selected c = true) :
    decodeInGroup .op c (encode i) = some i := by
  rw [encode, decodeInGroup_op]
  cases i with
  | txb b | rxb b => rfl
  | qcnt | reset => rfl
  | txendCk1 => exact congrArg some (if_pos hSel)
  | txendCk0 => exact congrArg some (if_neg (by simpa [Instr.selected] using hSel))
  | deqHead => exact congrArg some (if_neg (by simpa [Instr.selected] using hSel))
  | deqEmpty => exact congrArg some (if_pos hSel)
  | _ => cases hGroup

/-- A row of format `TXB_CASE`: the default row's operand is neither of the two that stand before it. -/
theorem decodeInGroup_txbCase_encode (hGroup : i.group = .txbCase) (hWf : i.wf = true) :
    decodeInGroup .txbCase c (encode i) = some i := by
  rw [encode, opNumber_of_txbCase hGroup, decodeInGroup_txb]
  cases i with
  | txbEnd | txbEsc => rfl
  | txbLit b => simp_all [Instr.wf, Instr.operand]
  | _ => cases hGroup

/-- A row of format `RXB_CASE`: the operand and the row's own conditions lead to it, past the rows before it. -/
theorem decodeInGroup_rxbCase_encode (hGroup : i.group = .rxbCase) (hWf : i.wf = true) (hSel : i.selected c = true) :
    decodeInGroup .rxbCase c (encode i) = some i := by
  rw [encode, opNumber_of_rxbCase hGroup, decodeInGroup_rxb]
  cases i with
  | rxbEEscEnd | rxbEEscEsc | rxbEEndFlag | rxbEEndDiscard => simp_all [Instr.selected, Instr.operand]
  | rxbNEsc | rxbNEndShort | rxbNEndMismatch | rxbNEndMatch | rxbNEndNock => simp_all [Instr.selected, Instr.operand]
  | rxbEOther b | rxbNData b => simp_all [Instr.wf, Instr.selected, Instr.operand]
  | _ => cases hGroup

end GroupOfRow

/-- Settles O1: the row is the first of its group that fits, group by group. -/
theorem everyRowDecodesFromItsEncoding : Obligations.EveryRowDecodesFromItsEncoding := by
  intro c i hWf hSel
  cases hGroup : i.group with
  | op => exact decodeInGroup_op_encode hGroup hSel
  | txbCase => exact decodeInGroup_txbCase_encode hGroup hWf
  | rxbCase => exact decodeInGroup_rxbCase_encode hGroup hWf hSel

/-- What the decoder answers for each operation number (R55, R56), in one lemma. -/
theorem decode_append (c : Ctx) (o : BitVec 3) (b : Byte) :
    decode c (o ++ b : BitVec (3 + 8)) =
      if o = 1#3 then .ok (if b = END then .txbEnd else if b = ESC then .txbEsc else .txbLit b)
      else if o = 2#3 then .ok (if c.cken then .txendCk1 else .txendCk0)
      else if o = 3#3 then .ok ((decodeInGroup .rxbCase c (3#3 ++ b : BitVec (3 + 8))).getD (.rxb b))
      else if o = 4#3 then .ok (if c.pqEmpty then .deqEmpty else .deqHead)
      else if o = 5#3 then .ok .qcnt
      else if o = 7#3 then .ok .reset
      else .error (.reservedOperation o) := by
  by_cases h1 : o = 1#3
  · rw [if_pos h1, h1, decode_txb]
  by_cases h3 : o = 3#3
  · subst h3
    exact decode_rxb c b
  rw [decode, decodeInGroup_op, reqOp_append, if_neg h1, if_neg h1, if_neg h3, if_neg h3]
  by_cases h2 : o = 2#3
  · cases hCken : c.cken <;> simp [h2]
  by_cases h4 : o = 4#3
  · cases hEmpty : c.pqEmpty <;> simp [h4]
  by_cases h5 : o = 5#3
  · simp [h5]
  by_cases h7 : o = 7#3
  · simp [h7]
  simp [h2, h4, h5, h7]

/-- What answers the word with operation number `o` and data `b`: a well-formed row, selected by the context, with the
word's operation number and, where `data` is an operand, the word's data. -/
structure AnswersWord (c : Ctx) (o : BitVec 3) (b : Byte) (i : Instr) : Prop where
  wf : i.wf = true
  selected : i.selected c = true
  opNumber_eq : i.opNumber = o
  operand_eq : o = 1#3 ∨ o = 3#3 → i.operand = b

section Answers

variable {c : Ctx} {o : BitVec 3} {b : Byte} {i : Instr}

/-- The case rows of `TXB` (R60 to R62). -/
theorem answersWord_txb (h : decode c (1#3 ++ b : BitVec (3 + 8)) = .ok i) : AnswersWord c 1#3 b i := by
  cases (decode_txb c b).symm.trans h
  split_ifs with hEnd hEsc
  · exact ⟨rfl, rfl, rfl, fun _ => hEnd.symm⟩
  · exact ⟨rfl, rfl, rfl, fun _ => hEsc.symm⟩
  · exact ⟨by simp [Instr.wf, hEnd, hEsc], rfl, rfl, fun _ => rfl⟩

/-- The case rows of `RXB` (R74 to R86): each is answered under its own conditions. -/
theorem answersWord_rxb (h : decode c (3#3 ++ b : BitVec (3 + 8)) = .ok i) : AnswersWord c 3#3 b i := by
  cases (decode_rxb c b).symm.trans h
  rw [decodeInGroup_rxb, Option.getD_some]
  split_ifs with hEsc hEscEnd hEscEsc hEnd hFlag hIsEsc hEnd hCken hShort hPass
  · exact ⟨rfl, hEsc, rfl, fun _ => hEscEnd.symm⟩
  · exact ⟨rfl, hEsc, rfl, fun _ => hEscEsc.symm⟩
  · exact ⟨rfl, by simp [Instr.selected, hEsc, hFlag], rfl, fun _ => hEnd.symm⟩
  · have hDiscard : c.policy = .discard := by cases h : c.policy <;> simp_all
    exact ⟨rfl, by simp [Instr.selected, hEsc, hDiscard], rfl, fun _ => hEnd.symm⟩
  · exact ⟨by simp [Instr.wf, hEscEnd, hEscEsc, hEnd], hEsc, rfl, fun _ => rfl⟩
  · exact ⟨rfl, by simp [Instr.selected, hEsc], rfl, fun _ => hIsEsc.symm⟩
  · exact ⟨rfl, by simp [Instr.selected, hEsc, hCken, hShort], rfl, fun _ => hEnd.symm⟩
  · exact ⟨rfl, by simp [Instr.selected, hEsc, hCken, hShort, hPass], rfl, fun _ => hEnd.symm⟩
  · exact ⟨rfl, by simp [Instr.selected, hEsc, hCken, hShort, hPass], rfl, fun _ => hEnd.symm⟩
  · exact ⟨rfl, by simp [Instr.selected, hEsc, hCken], rfl, fun _ => hEnd.symm⟩
  · exact ⟨by simp [Instr.wf, hIsEsc, hEnd], by simp [Instr.selected, hEsc], rfl, fun _ => rfl⟩

/-- Every answer of the decoder, operation number by operation number. -/
theorem answersWord_of_decode (h : decode c (o ++ b : BitVec (3 + 8)) = .ok i) : AnswersWord c o b i := by
  by_cases h1 : o = 1#3
  · subst h1
    exact answersWord_txb h
  by_cases h3 : o = 3#3
  · subst h3
    exact answersWord_rxb h
  have hNoOperand : o = 1#3 ∨ o = 3#3 → i.operand = b := fun ho => (ho.elim h1 h3).elim
  rw [decode_append, if_neg h1, if_neg h3] at h
  split_ifs at h with h2 hCken h4 hEmpty h5 h7 <;> cases h
  · exact ⟨rfl, hCken, h2.symm, hNoOperand⟩
  · exact ⟨rfl, by simpa [Instr.selected] using hCken, h2.symm, hNoOperand⟩
  · exact ⟨rfl, hEmpty, h4.symm, hNoOperand⟩
  · exact ⟨rfl, by simpa [Instr.selected] using hEmpty, h4.symm, hNoOperand⟩
  · exact ⟨rfl, rfl, h5.symm, hNoOperand⟩
  · exact ⟨rfl, rfl, h7.symm, hNoOperand⟩

end Answers

theorem reqOp_encode (i : Instr) : reqOp (encode i) = i.opNumber := reqOp_append i.opNumber i.operand

/-- Settles O2: the word is its two fields, and the encoder puts the row's operation number and operand into them. -/
theorem decodedInstructionIsSelectedAndEncodesBack : Obligations.DecodedInstructionIsSelectedAndEncodesBack := by
  intro c w i h
  rw [req_eta w] at h
  obtain ⟨hWf, hSel, hOp, hOperand⟩ := answersWord_of_decode h
  refine ⟨hWf, hSel, (reqOp_encode i).trans hOp, fun ho => ?_⟩
  rw [encode, hOp, hOperand ho]
  exact (req_eta w).symm

/-- A reserved operation number is refused (R56). -/
theorem decode_reserved {o : BitVec 3} (ho : o = 0#3 ∨ o = 6#3) (c : Ctx) (b : Byte) :
    decode c (o ++ b : BitVec (3 + 8)) = .error (.reservedOperation o) := by
  rcases ho with rfl | rfl <;> exact decode_append c _ b

/-- Every other operation number names an operation, whatever the data. -/
theorem decode_assigned {o : BitVec 3} (ho : ¬ (o = 0#3 ∨ o = 6#3)) (c : Ctx) (b : Byte) :
    ∃ i, decode c (o ++ b : BitVec (3 + 8)) = .ok i := by
  have hsix : o = 1#3 ∨ o = 2#3 ∨ o = 3#3 ∨ o = 4#3 ∨ o = 5#3 ∨ o = 7#3 := by
    revert o
    decide
  rcases hsix with rfl | rfl | rfl | rfl | rfl | rfl <;> exact ⟨_, decode_append c _ b⟩

/-- Settles O3: a word is its two fields, and its operation number is reserved or assigned. -/
theorem decoderRefusesExactlyReservedOperations : Obligations.DecoderRefusesExactlyReservedOperations := by
  intro c w
  have hrefused := fun ho => decode_reserved (o := reqOp w) ho c (reqData w)
  have hanswered := fun ho => decode_assigned (o := reqOp w) ho c (reqData w)
  rw [← req_eta w] at hrefused hanswered
  exact ⟨hrefused, hanswered⟩

/-- Settles O4: for the four operation numbers the answer does not mention the data. -/
theorem ignoredDataDoesNotChangeTheInstruction : Obligations.IgnoredDataDoesNotChangeTheInstruction := by
  intro c o d d' ho
  rw [decode_append, decode_append]
  rcases ho with rfl | rfl | rfl | rfl <;> rfl

/-- Settles O5: each word of the vectors is written as its two fields and looked up. -/
theorem requestWordsDecodeAsTheVectorsSay : Obligations.RequestWordsDecodeAsTheVectorsSay := by
  intro c
  refine ⟨decodeInGroup_op c 1#3 0x02#8, decode_txb c END, decode_txb c ESC, fun hCken => ?_, fun hCken => ?_,
    decodeInGroup_op c 3#3 END, fun hEsc => ?_, fun hPq => ?_, fun hPq => ?_, decode_append c 5#3 0,
    decode_append c 7#3 0, decode_append c 0#3 0, decode_append c 0#3 END, decode_append c 6#3 0,
    decode_append c 6#3 0xFF#8⟩
  · exact ⟨(decode_append c 2#3 0).trans (by simp [hCken]), (decode_append c 2#3 0xFF#8).trans (by simp [hCken])⟩
  · exact ⟨(decode_append c 2#3 0).trans (by simp [hCken]), (decode_append c 2#3 0xFF#8).trans (by simp [hCken])⟩
  · exact (decode_rxb c ESC).trans (by rw [decodeInGroup_rxb]; simp [hEsc])
  · exact ⟨(decode_append c 4#3 0).trans (by simp [hPq]), (decode_append c 4#3 0x55#8).trans (by simp [hPq])⟩
  · exact ⟨(decode_append c 4#3 0).trans (by simp [hPq]), (decode_append c 4#3 0x55#8).trans (by simp [hPq])⟩

end Sys2Proof
end

section
/-! The step (R11, R34, R58): the next word is decoded and run, a row is run by its word whatever row the decoder picks
for it, and the invariant of R22 is kept. -/

namespace Sys2Proof.Machine

section Fetch

variable {s t : State} {w : Req} {rest : List Req} {i : Instr}

theorem step_of_decode (hPending : s.pending = w :: rest) (hDecode : decode s.ctx w = .ok i) :
    step s = exec i { s with pending := rest } := by
  simp only [step, State.fetch_cons hPending, hDecode]

theorem step_of_refused {e : Reject} (hPending : s.pending = w :: rest) (hDecode : decode s.ctx w = .error e) :
    step s = .refused (.reservedRequest (reqOp w)) := by
  simp only [step, State.fetch_cons hPending, hDecode]

theorem step_of_nil (hPending : s.pending = []) : step s = .next s := by
  simp only [step, State.fetch_nil hPending]

/-- Everything a step that answers can have done: nothing, or one instruction on the state without its word. -/
theorem step_next_cases (h : step s = .next t) :
    t = s ∨ ∃ i rest, exec i { s with pending := rest } = .next t := by
  cases hPending : s.pending with
  | nil => exact .inl (Host.Outcome.next.inj (h.symm.trans (step_of_nil hPending)))
  | cons w rest =>
    cases hDecode : decode s.ctx w with
    | ok i => exact .inr ⟨i, rest, (step_of_decode hPending hDecode).symm.trans h⟩
    | error e => cases h.symm.trans (step_of_refused hPending hDecode)

end Fetch

/-- Settles O6: the step on a word that decodes. -/
theorem stepRunsTheDecodedInstruction : Obligations.StepRunsTheDecodedInstruction := fun _ _ _ _ => step_of_decode

/-- Settles O8: a reserved word does not decode. -/
theorem stepRefusesAReservedWord : Obligations.StepRefusesAReservedWord := fun s w _ hPending hOp =>
  step_of_refused hPending ((decoderRefusesExactlyReservedOperations s.ctx w).1 hOp)

/-- Settles O9: nothing is fetched. -/
theorem stepWithNothingPresentedChangesNothing : Obligations.StepWithNothingPresentedChangesNothing := fun _ =>
  step_of_nil

/-- Settles O10: presenting puts the word before the others, and taking it restores the state. -/
theorem stepAfterWithFetchWordRunsThatWord : Obligations.StepAfterWithFetchWordRunsThatWord := by
  intro s _ w i hw hDecode
  have hpresented : s.present w = { s with pending := BitVec.ofNat 11 w :: s.pending } := if_pos hw
  rw [State.withFetchWord, hpresented]
  exact step_of_decode rfl hDecode

/-- Settles O11: each of the six effects is a next state. -/
theorem everyOperationAnswersANextState : Obligations.EveryOperationAnswersANextState := by
  intro i s
  rcases exec_cases i s with ⟨b, -, -, -, h⟩ | ⟨-, -, -, h⟩ | ⟨b, -, -, -, h⟩ | ⟨-, -, -, h⟩ | ⟨-, h⟩ | ⟨-, h⟩ <;>
    exact ⟨_, h⟩

/-! ### A row stands for its request word -/

/-- The effect of the request word with operation number `o` and data `b` (R55); a reserved word has none. -/
def requestEffect (o : BitVec 3) (b : Byte) (s : State) : State :=
  if o = 1#3 then txByte b s
  else if o = 2#3 then txEnd s
  else if o = 3#3 then rxByte b s
  else if o = 4#3 then dequeue s
  else if o = 5#3 then s.report (.count s.pq.length)
  else if o = 7#3 then ((s.clearTx.resetDecoder).clearQueue).takeSupply
  else s

/-- Every row has the effect of its request word (R58). -/
theorem exec_eq_requestEffect (i : Instr) (s : State) : exec i s = .next (requestEffect i.opNumber i.operand s) := by
  cases i with
  | txb b | rxb b => rfl
  | qcnt | reset => rfl
  | txendCk1 => exact execTxendCk1_eq s
  | txendCk0 => exact execTxendCk0_eq s
  | deqHead => exact execDeqHead_eq s
  | deqEmpty => exact execDeqEmpty_eq s
  | txbEnd => exact execTxbEnd_eq s
  | txbEsc => exact execTxbEsc_eq s
  | txbLit b => exact execTxbLit_eq b s
  | rxbEEscEnd => exact execRxbEEscEnd_eq s
  | rxbEEscEsc => exact execRxbEEscEsc_eq s
  | rxbEEndFlag => exact execRxbEEndFlag_eq s
  | rxbEEndDiscard => exact execRxbEEndDiscard_eq s
  | rxbEOther b => exact execRxbEOther_eq s b
  | rxbNEsc => exact execRxbNEsc_eq s
  | rxbNEndShort => exact execRxbNEndShort_eq s
  | rxbNEndMismatch => exact execRxbNEndMismatch_eq s
  | rxbNEndMatch => exact execRxbNEndMatch_eq s
  | rxbNEndNock => exact execRxbNEndNock_eq s
  | rxbNData b => exact execRxbNData_eq s b

/-- Only `TXB` and `RXB` read the data of their word. -/
theorem requestEffect_ignores_data {o : BitVec 3} (h1 : o ≠ 1#3) (h3 : o ≠ 3#3) (b b' : Byte) :
    requestEffect o b = requestEffect o b' := by
  funext s
  simp only [requestEffect, if_neg h1, if_neg h3]

/-- The row that answers an instruction's word, whichever it is, has that instruction's meaning. -/
theorem exec_eq_of_answersWord {c : Ctx} {i j : Instr} (h : AnswersWord c i.opNumber i.operand j) (s : State) :
    exec j s = exec i s := by
  rw [exec_eq_requestEffect, exec_eq_requestEffect, h.opNumber_eq]
  by_cases hReads : i.opNumber = 1#3 ∨ i.opNumber = 3#3
  · rw [h.operand_eq hReads]
  · obtain ⟨h1, h3⟩ := not_or.mp hReads
    rw [requestEffect_ignores_data h1 h3]

theorem opNumber_not_reserved (i : Instr) : ¬ (i.opNumber = 0#3 ∨ i.opNumber = 6#3) := by
  cases i <;> simp [Instr.opNumber]

/-- Settles O7: some row answers the word, and it has the instruction's meaning. -/
theorem stepOfAnEncodedInstructionRunsIt : Obligations.StepOfAnEncodedInstructionRunsIt := by
  intro i s rest hPending
  obtain ⟨j, hDecode⟩ := decode_assigned (opNumber_not_reserved i) s.ctx i.operand
  rw [step_of_decode hPending hDecode]
  exact exec_eq_of_answersWord (answersWord_of_decode hDecode) _

/-! ### The invariant (R22) -/

section Invariant

variable {s t : State}

/-- The invariant speaks of the decoder and the policy only. -/
theorem State.Inv.of_same_decoder (h : s.Inv) (hBuf : t.rxBuf = s.rxBuf) (hAcc : t.rxAcc = s.rxAcc)
    (hAck : t.rxAck = s.rxAck) (hParams : t.params = s.params) : t.Inv :=
  ⟨by rw [hAcc, hBuf, h.rxAcc_eq], fun hPolicy => by rw [hAck, h.rxAck_discard (hParams ▸ hPolicy)]⟩

/-- A clean decoder meets the invariant: the checksum of no bytes is 0. -/
theorem State.Clean.inv (h : s.Clean) : s.Inv := by
  obtain ⟨hBuf, -, hAck, hAcc⟩ := h
  exact ⟨by rw [hBuf, hAcc, cks_nil], fun _ => hAck⟩

theorem State.resetDecoder_clean (s : State) : s.resetDecoder.Clean := ⟨rfl, rfl, rfl, rfl⟩

/-- `append` adds to `RX_ACC` what it adds to the checksum of the buffer (R73, R46). -/
theorem State.Inv.append (h : s.Inv) (v : Byte) : (s.append v).Inv := by
  refine ⟨?_, h.rxAck_discard⟩
  rw [State.append_rxAcc, State.append_rxBuf, h.rxAcc_eq, cks_append, cks_singleton, add32]

theorem State.Inv.setEsc (h : s.Inv) (v : Bool) : (s.setEsc v).Inv := h.of_same_decoder rfl rfl rfl rfl

/-- `RXB` keeps the invariant: it sets `RX_ACK` under `FLAG_ONLY` only, and what ends a frame cleans the decoder. -/
theorem State.Inv.rxByte (h : s.Inv) (b : Byte) : (rxByte b s).Inv := by
  rcases rxByte_cases b s with ⟨-, v, he⟩ | ⟨-, -, hFlag, he⟩ | ⟨c, he⟩ | ⟨-, -, he⟩ | ⟨-, -, p, he⟩ | ⟨-, -, -, he⟩ <;>
    rw [he]
  · exact (h.setEsc false).append v
  · exact ⟨h.rxAcc_eq, fun hDiscard => by cases hFlag.symm.trans hDiscard⟩
  · exact (State.resetDecoder_clean _).inv
  · exact h.setEsc true
  · exact (State.resetDecoder_clean _).inv
  · exact h.append b

/-- An instruction keeps the invariant: only `RXB` and `RESET` write what it speaks of. -/
theorem State.Inv.exec {i : Instr} (h : s.Inv) (he : exec i s = .next t) : t.Inv := by
  cases hc : i.channel with
  | tx =>
    rw [exec_tx_frame he hc]
    exact h.of_same_decoder rfl rfl rfl rfl
  | rx =>
    obtain ⟨b, hb⟩ := exec_of_rx s hc
    cases hb.symm.trans he
    exact h.rxByte b
  | q =>
    rw [exec_q_frame he hc]
    exact h.of_same_decoder rfl rfl rfl rfl
  | all =>
    cases eq_reset_of_channel_all hc
    cases he
    exact State.Clean.inv ⟨rfl, rfl, rfl, rfl⟩

end Invariant

/-- Settles O55: the decoder is clean after reset. -/
theorem invariantHoldsAfterReset : Obligations.InvariantHoldsAfterReset := fun _ => State.Clean.inv ⟨rfl, rfl, rfl, rfl⟩

/-- Settles O56: a step runs at most one instruction, on a state with the same decoder. -/
theorem everyStepKeepsTheInvariant : Obligations.EveryStepKeepsTheInvariant := by
  intro s t h hstep
  rcases step_next_cases hstep with rfl | ⟨i, rest, he⟩
  · exact h
  · exact (h.of_same_decoder rfl rfl rfl rfl : State.Inv { s with pending := rest }).exec he

end Sys2Proof.Machine
end

section
/-! The checksum (R45, R46) and the encoder (40_tx_encoder.md): `TXEND`, `SEND`, `FRAME`, and what `TX_ACC`
sums (R22). -/

namespace Sys2Proof.Machine

/-! ### The checksum -/

/-- The checksum as an integer (R46): the sum of the bytes and their number, modulo 2^32. -/
theorem contribSum_eq (S : List Byte) : contribSum S = (S.map BitVec.toNat).sum + S.length := by
  induction S with
  | nil => rfl
  | cons b S ih => rw [contribSum_cons, ih, List.map_cons, List.sum_cons, List.length_cons]; omega

theorem contribSum_perm {S T : List Byte} (h : S.Perm T) : contribSum S = contribSum T := (h.map _).sum_eq

/-- Settles O58: the sum is additive over concatenation and does not see the order. -/
theorem checksumLaws : Obligations.ChecksumLaws := by
  refine ⟨rfl, fun S b => ?_, fun S => ?_, fun S T h => ?_⟩
  · rw [cks_append, cks_singleton, contrib_eq, add32]
  · rw [cks, BitVec.toNat_ofNat, contribSum_eq]
  · rw [cks, cks, contribSum_perm h]

/-! ### `TXEND` -/

/-- Settles O15: both rows are `TXEND`, which takes its case of `CKEN = 1`; the trailer is written out by its bytes. -/
theorem txendWithChecksumEmitsRawTrailer : Obligations.TxendWithChecksumEmitsRawTrailer := by
  intro s hCken
  have heffect : exec .txendCk1 s = .next (txEnd s) := execTxendCk1_eq s
  refine ⟨rfl, ?_, (execTxendCk0_eq s).trans heffect.symm⟩
  rw [heffect, txEnd_eq, if_pos hCken, le32_eq]
  rfl

/-- Settles O16: both rows are `TXEND`, which takes its case of `CKEN = 0`. -/
theorem txendWithoutChecksumEmitsEndOnly : Obligations.TxendWithoutChecksumEmitsEndOnly := by
  intro s hCken
  have heffect : exec .txendCk0 s = .next (txEnd s) := execTxendCk0_eq s
  refine ⟨rfl, ?_, (execTxendCk1_eq s).trans heffect.symm⟩
  rw [heffect, txEnd_eq, hCken]
  rfl

/-! ### `SEND` and `FRAME` -/

/-- Settles O17, by induction on the payload: `esc*` and `cks` grow by the byte's own part. -/
theorem sendEmitsEscapedBytesAndSumsThem : Obligations.SendEmitsEscapedBytesAndSumsThem := by
  intro P
  induction P with
  | nil => intro s; simp [send]
  | cons b P ih =>
    intro s
    rw [send_cons, ih, txByte_eq]
    simp only [escSeq_cons, cks_cons, add32, List.append_assoc, BitVec.add_assoc]

/-- Settles O18: `SEND`, then `TXEND`, whose trailer is the checksum of the payload because the sum began at 0. -/
theorem frameEmitsTheWireForm : Obligations.FrameEmitsTheWireForm := by
  intro P s hAcc
  rw [frame, run_append (sendEmitsEscapedBytesAndSumsThem P s)]
  refine (run_frame_nil _).trans ?_
  simp [txEnd_eq, hAcc]

/-- Settles O19: what goes out is `esc*(P)`, which has the property (R43). -/
theorem sentBytesHoldNoLiteralReservedByte : Obligations.SentBytesHoldNoLiteralReservedByte := by
  intro P s t h
  cases (sendEmitsEscapedBytesAndSumsThem P s).symm.trans h
  exact ⟨escSeq P, rfl, end_notMem_escSeq P, escSeq_esc_followed P⟩

/-! ### What `TX_ACC` sums -/

/-- An operation that is none of the encoder's, and not `RESET`, leaves `TX_ACC` alone. -/
theorem exec_txAcc_of_rx_or_q {i : Instr} {s t : State} (h : exec i s = .next t)
    (hi : i.channel = .rx ∨ i.channel = .q) : t.txAcc = s.txAcc := by
  rcases hi with hi | hi
  · rw [exec_rx_frame h hi]
  · rw [exec_q_frame h hi]

/-- I2 of R22 is kept by one instruction: a `TXB` adds its operand, a `TXEND` or `RESET` begins again, the others do
neither. -/
theorem exec_txAcc_eq_cks {i : Instr} {s t : State} {S : List Byte} (hS : s.txAcc = cks S) (h : exec i s = .next t) :
    t.txAcc = cks (txSince S i) := by
  rcases exec_cases i s with ⟨b, -, hOperand, hEnds, he⟩ | ⟨-, -, hEnds, he⟩ | ⟨b, hc, hOperand, hEnds, -⟩ |
    ⟨hc, hOperand, hEnds, -⟩ | ⟨rfl, he⟩ | ⟨rfl, he⟩
  · cases he.symm.trans h
    simp [txSince, hEnds, hOperand, txByte_eq, hS, cks_append, cks_singleton, add32]
  · cases he.symm.trans h
    simp [txSince, hEnds, txEnd_eq]
  · simp [txSince, hEnds, hOperand, exec_txAcc_of_rx_or_q h (.inl hc), hS]
  · simp [txSince, hEnds, hOperand, exec_txAcc_of_rx_or_q h (.inr hc), hS]
  · cases he.symm.trans h
    simpa [txSince, endsTxSum, txOperand] using hS
  · cases he.symm.trans h
    rfl

/-- Settles O20, by induction on the run. -/
theorem txAccIsChecksumOfOperandsSinceTxend : Obligations.TxAccIsChecksumOfOperandsSinceTxend := by
  intro is
  induction is with
  | nil =>
    intro S s t hS h
    cases h
    exact hS
  | cons i is ih =>
    intro S s t hS h
    obtain ⟨u, hu⟩ := everyOperationAnswersANextState i s
    rw [run_cons hu] at h
    exact ih (txSince S i) u t (exec_txAcc_eq_cks hS hu) h

end Sys2Proof.Machine
end

section
/-! The decoder (41_rx_decoder.md, 60_exceptions.md): bad escapes, the clean state after `END`, the causes of a discard,
and when a packet is enqueued. -/

namespace Sys2Proof.Machine

/-- Settles O24: the case of any other byte in an escape is a discard. -/
theorem rxbBadEscapeDiscards : Obligations.RxbBadEscapeDiscards := by
  intro b s hEsc hNotEscEnd hNotEscEsc hNotEnd
  have hword : encode (.rxbEOther b) = BitVec.ofNat 11 (0x300 + b.toNat) := encode_eq_ofNat (by simp [Instr.opNumber])
  exact ⟨hword, exec_row_of_rxByte (execRxbEOther_eq s b)
    ((rxByte_bad hEsc hNotEscEnd hNotEscEsc hNotEnd).trans (s.discard_eq .badEscape))⟩

theorem State.discard_clean (c : DropCause) (s : State) : (s.discard c).Clean := ⟨rfl, rfl, rfl, rfl⟩

theorem State.accept_clean (p : Packet) (s : State) : (s.accept p).Clean := ⟨rfl, rfl, rfl, rfl⟩

/-- An `END` that ends a frame leaves the decoder clean (R88): outside an escape it discards or accepts, and under
`DISCARD` it discards inside one. -/
theorem rxByte_end_clean {s : State} (h : s.rxEsc = false ∨ s.params.escEndPolicy = .discard) :
    (rxByte END s).Clean := by
  cases hEsc : s.rxEsc with
  | false =>
    rw [rxByte_boundary hEsc]
    rcases rxBoundary_cases s with ⟨c, hdiscard, -⟩ | ⟨p, haccept⟩
    · exact hdiscard ▸ s.discard_clean c
    · exact haccept ▸ s.accept_clean p
  | true =>
    have hPolicy : s.params.escEndPolicy = .discard := h.resolve_left (by simp [hEsc])
    rw [rxByte_endDiscard hEsc hPolicy]
    exact s.discard_clean .badEscape

/-- Settles O31: the four components of the clean state. -/
theorem endLeavesTheDecoderClean : Obligations.EndLeavesTheDecoderClean := by
  intro s t h hexec
  cases (exec_rxb END s).symm.trans hexec
  exact rxByte_end_clean h

/-! ### The causes of a discard (60_exceptions.md section 2) -/

/-- When `RXB b` discards for each cause (R81, R82, R77 and R78). -/
def DropCondition (b : Byte) (s : State) : DropCause → Prop
  | .truncatedTrailer => b = END ∧ s.rxEsc = false ∧ s.params.cken = true ∧ s.rxBuf.length < 4
  | .checksumMismatch =>
    b = END ∧ s.rxEsc = false ∧ s.params.cken = true ∧ 4 ≤ s.rxBuf.length ∧ receivedCks s ≠ expectedCks s
  | .badEscape => s.rxEsc = true ∧ b ≠ ESC_END ∧ b ≠ ESC_ESC ∧ (b = END → s.params.escEndPolicy = .discard)

section DropCondition

variable {b : Byte} {s : State}

theorem rxByte_of_dropCondition {c : DropCause} (h : DropCondition b s c) : rxByte b s = s.discard c := by
  cases c with
  | truncatedTrailer =>
    obtain ⟨rfl, hEsc, hCken, hShort⟩ := h
    exact rxByte_end_short hEsc hCken hShort
  | checksumMismatch =>
    obtain ⟨rfl, hEsc, hCken, hLong, hCks⟩ := h
    have hNotShort : bufShort s = false := by simpa [bufShort] using hLong
    have hFail : ckPass s = false := by simpa [ckPass] using hCks
    exact (rxByte_boundary hEsc).trans (rxBoundary_mismatch hCken hNotShort hFail)
  | badEscape =>
    obtain ⟨hEsc, hNotEscEnd, hNotEscEsc, hPolicy⟩ := h
    by_cases hEnd : b = END
    · subst hEnd
      exact rxByte_endDiscard hEsc (hPolicy rfl)
    · exact rxByte_bad hEsc hNotEscEnd hNotEscEsc hEnd

/-- At a boundary the tests of R80 decide between the two causes and an accept. -/
theorem rxByte_end_dropCondition_or_accept (hEsc : s.rxEsc = false) :
    (∃ c, DropCondition END s c) ∨ ∃ p, rxByte END s = s.accept p := by
  cases hCken : s.params.cken with
  | false => exact .inr ⟨_, rxByte_end_noCheck hEsc hCken⟩
  | true =>
    by_cases hShort : s.rxBuf.length < 4
    · exact .inl ⟨.truncatedTrailer, rfl, hEsc, hCken, hShort⟩
    by_cases hCks : receivedCks s = expectedCks s
    · have hNotShort : bufShort s = false := by simpa [bufShort] using hShort
      exact .inr ⟨_, (rxByte_boundary hEsc).trans (rxBoundary_match hCken hNotShort ((ckPass_iff s).mpr hCks))⟩
    · exact .inl ⟨.checksumMismatch, rfl, hEsc, hCken, not_lt.mp hShort, hCks⟩

/-- Where no cause's condition holds, `RXB` emits no `RX_DROP`. -/
theorem dropCondition_or_evt (b : Byte) (s : State) :
    (∃ c, DropCondition b s c) ∨ (rxByte b s).evt = s.evt ∨ ∃ p, rxByte b s = s.accept p := by
  cases hEsc : s.rxEsc with
  | false =>
    by_cases hIsEsc : b = ESC
    · exact .inr (.inl (by rw [hIsEsc, rxByte_esc hEsc]; rfl))
    by_cases hEnd : b = END
    · subst hEnd
      exact (rxByte_end_dropCondition_or_accept hEsc).imp_right .inr
    · exact .inr (.inl (by rw [rxByte_data hEsc hIsEsc hEnd]; rfl))
  | true =>
    by_cases hEscEnd : b = ESC_END
    · exact .inr (.inl (by rw [hEscEnd, rxByte_escEnd hEsc]; rfl))
    by_cases hEscEsc : b = ESC_ESC
    · exact .inr (.inl (by rw [hEscEsc, rxByte_escEsc hEsc]; rfl))
    by_cases hFlag : b = END ∧ s.params.escEndPolicy = .flagOnly
    · obtain ⟨rfl, hPolicy⟩ := hFlag
      exact .inr (.inl (by rw [rxByte_endFlag hEsc hPolicy]; rfl))
    · have hPolicy : b = END → s.params.escEndPolicy = .discard := by
        cases hp : s.params.escEndPolicy <;> simp_all
      exact .inl ⟨.badEscape, hEsc, hEscEnd, hEscEsc, hPolicy⟩

/-- `RXB` reports a cause exactly under its condition. -/
theorem rxByte_evt_rxDrop_iff (c : DropCause) :
    (rxByte b s).evt = s.evt ++ [.rxDrop c] ↔ DropCondition b s c := by
  refine ⟨fun hevt => ?_, fun h => by rw [rxByte_of_dropCondition h]; rfl⟩
  rcases dropCondition_or_evt b s with ⟨c', h⟩ | hsilent | ⟨p, haccept⟩
  · have hc : c' = c := by simpa [rxByte_of_dropCondition h, State.discard_eq] using hevt
    exact hc ▸ h
  · simp [hsilent] at hevt
  · simp [haccept, State.accept_eq] at hevt

end DropCondition

/-- Settles O32: cause by cause. -/
theorem discardCausesHaveExactlyTheirConditions : Obligations.DiscardCausesHaveExactlyTheirConditions := by
  intro b s t h
  cases (exec_rxb b s).symm.trans h
  exact ⟨rxByte_evt_rxDrop_iff .truncatedTrailer, rxByte_evt_rxDrop_iff .checksumMismatch,
    rxByte_evt_rxDrop_iff .badEscape⟩

/-! ### When a packet is enqueued -/

/-- A step that emits nothing does not lengthen `PQ`: the only operation that appends to it notifies (R85). -/
theorem exec_pq_length_le_of_silent {i : Instr} {s t : State} (h : exec i s = .next t) (hevt : t.evt = s.evt) :
    t.pq.length ≤ s.pq.length := by
  cases hc : i.channel with
  | tx => rw [exec_tx_frame h hc]
  | rx =>
    obtain ⟨b, hb⟩ := exec_of_rx s hc
    cases hb.symm.trans h
    rcases rxByte_cases b s with ⟨-, v, he⟩ | ⟨-, -, -, he⟩ | ⟨c, he⟩ | ⟨-, -, he⟩ | ⟨-, -, p, he⟩ | ⟨-, -, -, he⟩
    case inr.inr.inr.inr.inl => simp [he, State.accept_eq] at hevt
    all_goals simp [he, State.discard_eq]
  | q => rcases exec_q_pq h hc with hpq | hpq <;> simp [hpq]
  | all =>
    cases eq_reset_of_channel_all hc
    cases h
    exact Nat.zero_le _

/-- Settles O34: a step is silent, an accept or a discard; a silent one does not lengthen the queue. -/
theorem packetEventIffPacketEnqueued : Obligations.PacketEventIffPacketEnqueued := by
  intro i s t h
  rcases exec_event_cases h with hsilent | ⟨p, rfl⟩ | ⟨c, rfl⟩
  · refine .inl ⟨hsilent, fun ⟨p, hpq⟩ => ?_⟩
    have hlength := exec_pq_length_le_of_silent h hsilent
    simp [hpq] at hlength
  · exact .inr (.inl ⟨rfl, p, rfl⟩)
  · exact .inr (.inr ⟨c, rfl, rfl⟩)

/-- A byte other than `END` enqueues nothing, and the only event it can cause is a discard's. -/
theorem rxByte_of_ne_end {b : Byte} (hb : b ≠ END) (s : State) :
    (rxByte b s).pq = s.pq ∧ ∃ E, (rxByte b s).evt = s.evt ++ E ∧ Event.pktEvt ∉ E := by
  rcases rxByte_cases b s with ⟨-, v, h⟩ | ⟨-, hEnd, -⟩ | ⟨c, h⟩ | ⟨-, -, h⟩ | ⟨-, hEnd, -⟩ | ⟨-, -, -, h⟩
  case inr.inl | inr.inr.inr.inr.inl => exact absurd hEnd hb
  case inr.inr.inl => exact ⟨by simp [h, State.discard_eq], [.rxDrop c], by simp [h, State.discard_eq], by simp⟩
  all_goals exact ⟨by simp [h], [], by simp [h], by simp⟩

/-- Settles O41, by induction on the bytes. -/
theorem nothingIsDeliveredWithoutEnd : Obligations.NothingIsDeliveredWithoutEnd := by
  intro W
  induction W with
  | nil => exact fun s _ => ⟨s, [], rfl, rfl, (List.append_nil _).symm, List.not_mem_nil⟩
  | cons b W ih =>
    intro s hW
    obtain ⟨hb, hRest⟩ := not_or.mp (mt List.mem_cons.mpr hW)
    obtain ⟨hpq, E, hevt, hE⟩ := rxByte_of_ne_end (Ne.symm hb) s
    obtain ⟨t, E', hrun, hpq', hevt', hE'⟩ := ih (rxByte b s) hRest
    refine ⟨t, E ++ E', (feed_cons b W s).trans hrun, hpq'.trans hpq, ?_, by simp [hE, hE']⟩
    rw [hevt', hevt, List.append_assoc]

end Sys2Proof.Machine
end

section
/-! Whole frames fed to the decoder (R44, R89, R91, R115, R118, R121): escaped bytes are buffered, and the `END` after
them judges what the buffer holds. -/

namespace Sys2Proof.Machine

/-- The state with the logical bytes `P` buffered and summed (R73, byte after byte). -/
def State.buffer (P : List Byte) (s : State) : State := { s with rxBuf := s.rxBuf ++ P, rxAcc := s.rxAcc + cks P }

section Buffer

variable (P Q : List Byte) (s : State)

@[simp] theorem State.buffer_nil : s.buffer [] = s := by simp [State.buffer]

theorem State.buffer_cons (b : Byte) : s.buffer (b :: P) = (s.append b).buffer P := by
  simp [State.buffer, State.append, add32, cks_cons, BitVec.add_assoc]

theorem State.buffer_append : s.buffer (P ++ Q) = (s.buffer P).buffer Q := by
  simp [State.buffer, cks_append, BitVec.add_assoc]

/-- What ends a frame forgets what was buffered. -/
@[simp] theorem State.accept_buffer (p : Packet) : (s.buffer P).accept p = s.accept p := rfl

@[simp] theorem State.discard_buffer (c : DropCause) : (s.buffer P).discard c = s.discard c := rfl

end Buffer

section Feed

variable {s : State}

/-- The wire bytes of one logical byte, outside an escape, append it (R44). -/
theorem run_feed_esc (b : Byte) (V : List Byte) (hEsc : s.rxEsc = false) :
    run (feed (esc b ++ V)) s = run (feed V) (s.append b) := by
  have hcleared : (s.setEsc true).setEsc false = s := by
    cases s
    cases hEsc
    rfl
  by_cases hEnd : b = END
  · subst hEnd
    rw [esc_end, List.cons_append, feed_cons, rxByte_esc hEsc, List.singleton_append, feed_cons, rxByte_escEnd rfl,
      rxUnescapeEnd, rxEscape, hcleared]
  by_cases hIsEsc : b = ESC
  · subst hIsEsc
    rw [esc_esc, List.cons_append, feed_cons, rxByte_esc hEsc, List.singleton_append, feed_cons, rxByte_escEsc rfl,
      rxUnescapeEsc, rxEscape, hcleared]
  · rw [esc_literal hEnd hIsEsc, List.singleton_append, feed_cons, rxByte_data hEsc hIsEsc hEnd, rxData]

/-- R44, with more bytes to come. -/
theorem run_feed_escSeq_append (P V : List Byte) (hEsc : s.rxEsc = false) :
    run (feed (escSeq P ++ V)) s = run (feed V) (s.buffer P) := by
  induction P generalizing s with
  | nil => simp
  | cons b P ih =>
    rw [escSeq_cons, List.append_assoc, run_feed_esc b _ hEsc, ih (s := s.append b) hEsc, State.buffer_cons]

theorem run_feed_escSeq (P : List Byte) (hEsc : s.rxEsc = false) : run (feed (escSeq P)) s = .next (s.buffer P) := by
  rw [← List.append_nil (escSeq P), run_feed_escSeq_append P [] hEsc]
  rfl

/-- Bytes that are not reserved are buffered as they are; `run_feed_append_of_noReserved` in terms of `buffer`. -/
theorem run_feed_raw_append {W : List Byte} (hW : NoReserved W) (V : List Byte) (hEsc : s.rxEsc = false) :
    run (feed (W ++ V)) s = run (feed V) (s.buffer W) := run_feed_append_of_noReserved hW V hEsc

theorem run_feed_end (s : State) : run (feed [END]) s = .next (rxByte END s) := feed_cons END [] s

end Feed

/-- Settles O35: `buffer` written out. -/
theorem feedingEscapedBytesBuffersThePayload : Obligations.FeedingEscapedBytesBuffersThePayload := fun P _ =>
  run_feed_escSeq P

section CleanDecoder

variable {s : State}

theorem State.Clean.rxEsc_eq (h : s.Clean) : s.rxEsc = false := h.2.1

/-- In a clean decoder a discard only leaves its diagnostic (R100). -/
theorem State.Clean.discard_eq (h : s.Clean) (c : DropCause) : s.discard c = { s with evt := s.evt ++ [.rxDrop c] } :=
  State.Clean.resetDecoder_eq (s := s.event (.rxDrop c)) h

/-- A clean decoder buffers exactly what it is fed. -/
theorem State.Clean.rxBuf_buffer (h : s.Clean) (P : List Byte) : (s.buffer P).rxBuf = P := by
  obtain ⟨hBuf, -⟩ := h
  simp [State.buffer, hBuf]

theorem State.Clean.rxAcc_buffer (h : s.Clean) (P : List Byte) : (s.buffer P).rxAcc = cks P := by
  obtain ⟨-, -, -, hAcc⟩ := h
  simp [State.buffer, hAcc]

/-- `END` with `CKEN = 0` delivers everything that was fed (R84). -/
theorem State.Clean.end_noCheck (h : s.Clean) (hCken : s.params.cken = false) (P : List Byte) :
    rxByte END (s.buffer P) = s.accept P := by
  rw [rxByte_end_noCheck (s := s.buffer P) h.rxEsc_eq hCken, h.rxBuf_buffer, State.accept_buffer]

/-- `END` with `CKEN = 1` on fewer than four bytes (R81). -/
theorem State.Clean.end_short (h : s.Clean) (hCken : s.params.cken = true) {P : List Byte} (hP : P.length < 4) :
    rxByte END (s.buffer P) = s.discard .truncatedTrailer := by
  rw [rxByte_end_short (s := s.buffer P) h.rxEsc_eq hCken (by rwa [h.rxBuf_buffer]), State.discard_buffer]

/-- The expected checksum of R82 in a clean start: what the bytes before the trailer sum to. -/
theorem State.Clean.expected (h : s.Clean) (P t : List Byte) : sub32 (s.buffer (P ++ t)).rxAcc (cks t) = cks P := by
  rw [h.rxAcc_buffer, cks_append, sub32, BitVec.add_sub_cancel]

/-- `END` with `CKEN = 1` after a trailer that states the checksum of the bytes before it (R83). -/
theorem State.Clean.end_match (h : s.Clean) (hCken : s.params.cken = true) {P t : List Byte} (ht : t.length = 4)
    (hCks : unle32 t = cks P) : rxByte END (s.buffer (P ++ t)) = s.accept P := by
  rw [rxByte_end_match (s := s.buffer (P ++ t)) h.rxEsc_eq hCken (h.rxBuf_buffer _) ht (by rw [h.expected, hCks]),
    State.accept_buffer]

/-- `END` with `CKEN = 1` after any other trailer (R82). -/
theorem State.Clean.end_mismatch (h : s.Clean) (hCken : s.params.cken = true) {P t : List Byte} (ht : t.length = 4)
    (hCks : unle32 t ≠ cks P) : rxByte END (s.buffer (P ++ t)) = s.discard .checksumMismatch := by
  rw [rxByte_end_mismatch (s := s.buffer (P ++ t)) h.rxEsc_eq hCken (h.rxBuf_buffer _) ht (by rwa [h.expected]),
    State.discard_buffer]

/-- A frame without a trailer, fed to a clean decoder, is judged by its `END` (R50). -/
theorem State.Clean.run_frame (h : s.Clean) (P : List Byte) :
    run (feed (escSeq P ++ [END])) s = .next (rxByte END (s.buffer P)) := by
  rw [run_feed_escSeq_append P _ h.rxEsc_eq, run_feed_end]

/-- A frame with a raw trailer that holds no reserved byte, likewise (R49). -/
theorem State.Clean.run_trailer_frame (h : s.Clean) (P : List Byte) {t : List Byte} (ht : NoReserved t) :
    run (feed (escSeq P ++ t ++ [END])) s = .next (rxByte END (s.buffer (P ++ t))) := by
  rw [List.append_assoc, run_feed_escSeq_append P _ h.rxEsc_eq, run_feed_raw_append (s := s.buffer P) ht _ h.rxEsc_eq,
    ← State.buffer_append, run_feed_end]

/-- The same frame before its `END`: the bytes are buffered and nothing else has happened. -/
theorem State.Clean.run_trailer_frame_before_end (h : s.Clean) (P : List Byte) {t : List Byte} (ht : NoReserved t) :
    run (feed (escSeq P ++ t)) s = .next (s.buffer (P ++ t)) := by
  rw [← List.append_nil t, run_feed_escSeq_append P _ h.rxEsc_eq,
    run_feed_raw_append (s := s.buffer P) ht _ h.rxEsc_eq, ← State.buffer_append, List.append_nil]
  rfl

end CleanDecoder

/-! ### Frames that arrive whole -/

theorem wire_true (P : List Byte) : wire true P = escSeq P ++ le32 (cks P) ++ [END] := rfl

theorem wire_false (P : List Byte) : wire false P = escSeq P ++ [END] := rfl

/-- Settles O36: before the `END` the frame is buffered, and the `END` accepts the payload, with `CKEN = 1` because the
trailer is the payload's own checksum. -/
theorem wireFormRoundTrips : Obligations.WireFormRoundTrips := by
  intro P s hClean hTrailer
  cases hCken : s.params.cken with
  | false =>
    rw [wire_false, List.dropLast_concat]
    refine ⟨?_, s.buffer P, run_feed_escSeq P hClean.rxEsc_eq, rfl, rfl⟩
    rw [hClean.run_frame, hClean.end_noCheck hCken, hClean.accept_eq]
  | true =>
    rw [wire_true, List.dropLast_concat]
    refine ⟨?_, _, hClean.run_trailer_frame_before_end P (hTrailer hCken), rfl, rfl⟩
    rw [hClean.run_trailer_frame P (hTrailer hCken), hClean.end_match hCken rfl (unle32_le32 _), hClean.accept_eq]

/-- Settles O40: each receiver judges the other's frame by its own mode (R118). -/
theorem mismatchedChecksumModes : Obligations.MismatchedChecksumModes := by
  intro P s hClean
  rw [wire_true, wire_false]
  refine ⟨fun hCken hTrailer => ?_, fun hCken hShort => ?_, fun A T hCken hP hT hCks => ?_,
    fun A T hCken hP hT hCks => ?_⟩
  · rw [hClean.run_trailer_frame P hTrailer, hClean.end_noCheck hCken, hClean.accept_eq]
  · rw [hClean.run_frame, hClean.end_short hCken hShort, hClean.discard_eq]
  · rw [hClean.run_frame, hP, hClean.end_match hCken hT hCks, hClean.accept_eq]
  · rw [hClean.run_frame, hP, hClean.end_mismatch hCken hT hCks, hClean.discard_eq]

/-- Settles O39: the trailer decodes to the word it was made of. -/
theorem wrongTrailerIsDetected : Obligations.WrongTrailerIsDetected := by
  intro P v s hClean hCken hv hTrailer
  refine (hClean.run_trailer_frame P hTrailer).trans ?_
  rw [hClean.end_mismatch hCken rfl (by rwa [unle32_le32]), hClean.discard_eq]

/-- A byte's contribution, in 1..256, determines the byte. -/
theorem contrib_injective : Function.Injective contrib := by
  intro x y h
  apply BitVec.eq_of_toNat_eq
  have hx := x.isLt
  have hy := y.isLt
  rw [contrib_eq, contrib_eq, ← BitVec.toNat_inj, BitVec.toNat_ofNat, BitVec.toNat_ofNat] at h
  omega

/-- Another value of one byte gives another checksum (R47: addition modulo 2^32 can be undone). -/
theorem cks_ne_of_byte_ne {x y : Byte} (h : x ≠ y) (A B : List Byte) : cks (A ++ x :: B) ≠ cks (A ++ y :: B) := by
  simpa [cks_append, cks_cons] using contrib_injective.ne h

/-- Settles O38: the trailer belongs to another payload, so it is a wrong one. -/
theorem oneChangedPayloadByteIsDetected : Obligations.OneChangedPayloadByteIsDetected :=
  fun A B _ y s hClean hCken hxy hTrailer =>
    wrongTrailerIsDetected (A ++ y :: B) _ s hClean hCken (cks_ne_of_byte_ne hxy A B) hTrailer

/-- Settles O42: under `FLAG_ONLY` the swallowed `END` leaves the buffer as it was, so the next one delivers both
payloads; under `DISCARD` it cleans the decoder, so the next one delivers the second (R121). -/
theorem swallowedEndMergesFramesUnderFlagOnly : Obligations.SwallowedEndMergesFramesUnderFlagOnly := by
  intro P Q s hClean hCken
  have hfirst : run (feed (escSeq P ++ [ESC, END] ++ escSeq Q ++ [END])) s =
      run (feed (escSeq Q ++ [END])) (rxByte END ((s.buffer P).setEsc true)) := by
    rw [List.append_assoc, List.append_assoc, run_feed_escSeq_append P _ hClean.rxEsc_eq, List.cons_append, feed_cons,
      List.singleton_append, feed_cons, rxByte_esc (s := s.buffer P) hClean.rxEsc_eq, rxEscape]
  refine ⟨fun hFlag => hfirst.trans ?merged, fun hDiscard => hfirst.trans ?second⟩
  case merged =>
    have hswallowed : rxByte END ((s.buffer P).setEsc true) = ((s.buffer P).setEsc false).setAck :=
      rxByte_endFlag (s := (s.buffer P).setEsc true) rfl hFlag
    have hend : rxByte END ((((s.buffer P).setEsc false).setAck).buffer Q) = s.accept ((s.buffer P).rxBuf ++ Q) :=
      rxByte_end_noCheck rfl hCken
    rw [hswallowed, run_feed_escSeq_append Q _ rfl, run_feed_end, hend, hClean.rxBuf_buffer, hClean.accept_eq]
  case second =>
    have hdropped : rxByte END ((s.buffer P).setEsc true) = s.discard .badEscape :=
      rxByte_endDiscard (s := (s.buffer P).setEsc true) rfl hDiscard
    have hClean' := s.discard_clean .badEscape
    rw [hdropped, hClean'.run_frame, hClean'.end_noCheck hCken, hClean'.accept_eq, hClean.discard_eq, List.append_assoc]
    rfl

/-! ### A reserved byte in the trailer (R115) -/

/-- From `s` to `t` only packets shorter than `n` are enqueued. -/
def DeliversShorterThan (n : Nat) (s t : State) : Prop := ∃ E, t.pq = s.pq ++ E ∧ ∀ q ∈ E, q.length < n

section Shorter

variable {n : Nat} {s t u : State}

theorem DeliversShorterThan.of_pq_eq (h : t.pq = s.pq) : DeliversShorterThan n s t :=
  ⟨[], by rw [h, List.append_nil], by simp⟩

theorem DeliversShorterThan.trans (h : DeliversShorterThan n s t) (h' : DeliversShorterThan n t u) :
    DeliversShorterThan n s u := by
  obtain ⟨E, hpq, hE⟩ := h
  obtain ⟨E', hpq', hE'⟩ := h'
  exact ⟨E ++ E', by rw [hpq', hpq, List.append_assoc], List.forall_mem_append.mpr ⟨hE, hE'⟩⟩

@[simp] theorem rxByte_params (b : Byte) (s : State) : (rxByte b s).params = s.params := by
  rw [rxByte_frame b s]

/-- With `CKEN = 1` an accept takes four bytes off the buffer for the trailer (R83). -/
theorem length_add_four_of_accept {p : Packet} (hEsc : s.rxEsc = false) (hCken : s.params.cken = true)
    (h : rxByte END s = s.accept p) : p.length + 4 = s.rxBuf.length := by
  rw [rxByte_boundary hEsc] at h
  cases hShort : bufShort s with
  | true => simp [rxBoundary_short hCken hShort, rxShortFrame, State.discard_eq, State.accept_eq] at h
  | false =>
    cases hPass : ckPass s with
    | false => simp [rxBoundary_mismatch hCken hShort hPass, rxMismatch, State.discard_eq, State.accept_eq] at h
    | true =>
      have hp : payloadPart s.rxBuf = p := by
        simpa [rxBoundary_match hCken hShort hPass, rxMatch, State.accept_eq] using h
      have hLong : ¬ s.rxBuf.length < 4 := by simpa [bufShort] using hShort
      rw [← hp, payloadPart, List.length_take]
      omega

/-- One byte with `CKEN = 1`: the buffer grows by at most one, and what is delivered is shorter than the buffer by
four. -/
theorem rxByte_delivers (hCken : s.params.cken = true) (hn : s.rxBuf.length < n + 4) (b : Byte) :
    (rxByte b s).rxBuf.length ≤ s.rxBuf.length + 1 ∧ DeliversShorterThan n s (rxByte b s) := by
  rcases rxByte_cases b s with ⟨-, v, h⟩ | ⟨-, -, -, h⟩ | ⟨c, h⟩ | ⟨-, -, h⟩ | ⟨hEsc, rfl, p, h⟩ | ⟨-, -, -, h⟩
  case inr.inr.inr.inr.inl =>
    have hp := length_add_four_of_accept hEsc hCken h
    rw [h]
    exact ⟨Nat.zero_le _, [p], rfl, by simp; omega⟩
  all_goals exact ⟨by simp [h, State.discard_eq], .of_pq_eq (by simp [h, State.discard_eq])⟩

/-- Outside an escape a reserved byte is not buffered. -/
theorem rxByte_reserved_length (hEsc : s.rxEsc = false) {r : Byte} (hr : r = END ∨ r = ESC) :
    (rxByte r s).rxBuf.length ≤ s.rxBuf.length := by
  rcases hr with rfl | rfl
  · obtain ⟨hBuf, -⟩ := rxByte_end_clean (.inl hEsc)
    simp [hBuf]
  · rw [rxByte_esc hEsc]
    exact le_rfl

/-- Feeding `W` with `CKEN = 1` delivers only packets shorter than `n`, if the buffer with all of `W` but one byte
added, and four bytes taken off for the trailer, is shorter than `n`. -/
theorem run_feed_delivers {W : List Byte} (hCken : s.params.cken = true) (hn : s.rxBuf.length + W.length < n + 5) :
    ∃ t, run (feed W) s = .next t ∧ DeliversShorterThan n s t := by
  induction W generalizing s with
  | nil => exact ⟨s, rfl, .of_pq_eq rfl⟩
  | cons b W ih =>
    rw [List.length_cons] at hn
    obtain ⟨hlength, hfirst⟩ := rxByte_delivers hCken (n := n) (by omega) b
    obtain ⟨t, hrun, hrest⟩ := ih (s := rxByte b s) (by rwa [rxByte_params]) (by omega)
    exact ⟨t, (feed_cons b W s).trans hrun, hfirst.trans hrest⟩

end Shorter

/-- The first reserved byte of a list that holds one. -/
theorem exists_first_reserved {t : List Byte} (h : ¬ NoReserved t) :
    ∃ A r B, t = A ++ r :: B ∧ NoReserved A ∧ (r = END ∨ r = ESC) := by
  induction t with
  | nil => exact absurd (List.forall_mem_nil _) h
  | cons b t ih =>
    by_cases hb : b = END ∨ b = ESC
    · exact ⟨[], b, t, rfl, List.forall_mem_nil _, hb⟩
    · have hb' : b ≠ END ∧ b ≠ ESC := not_or.mp hb
      obtain ⟨A, r, B, rfl, hA, hr⟩ := ih fun ht => h (List.forall_mem_cons.mpr ⟨hb', ht⟩)
      exact ⟨b :: A, r, B, rfl, List.forall_mem_cons.mpr ⟨hb', hA⟩, hr⟩

/-- Settles O37: the frame has five bytes after the payload, and the first reserved one among the four of the trailer is
not buffered, so at every boundary fewer than four bytes beyond the payload's length are. -/
theorem reservedTrailerByteNeverDeliversThePayload : Obligations.ReservedTrailerByteNeverDeliversThePayload := by
  intro P s hClean hCken hTrailer
  obtain ⟨A, r, B, hsplit, hA, hr⟩ := exists_first_reserved hTrailer
  have hfour : A.length + (B.length + 1) = 4 := by simpa using (congrArg List.length hsplit).symm
  have hlength : (s.buffer (P ++ A)).rxBuf.length = P.length + A.length := by
    rw [hClean.rxBuf_buffer, List.length_append]
  have hpayload : run (feed (wire true P)) s = run (feed (B ++ [END])) (rxByte r (s.buffer (P ++ A))) := by
    rw [wire_true, hsplit, List.append_assoc, run_feed_escSeq_append P _ hClean.rxEsc_eq, List.append_assoc,
      run_feed_raw_append (s := s.buffer P) hA _ hClean.rxEsc_eq, ← State.buffer_append, List.cons_append, feed_cons]
  obtain ⟨-, hreserved⟩ := rxByte_delivers (s := s.buffer (P ++ A)) (n := P.length) hCken (by omega) r
  have hshort := rxByte_reserved_length (s := s.buffer (P ++ A)) hClean.rxEsc_eq hr
  obtain ⟨t, hrun, hrest⟩ := run_feed_delivers (s := rxByte r (s.buffer (P ++ A))) (W := B ++ [END]) (n := P.length)
    (by rwa [rxByte_params]) (by simp; omega)
  obtain ⟨E, hpq, hE⟩ := hreserved.trans hrest
  exact ⟨t, E, hpayload.trans hrun, hpq, hE⟩

end Sys2Proof.Machine
end

section
/-! The whole machine: `RESET` (R111, R27), what every operation keeps (R20, R21), the order of the channels (R35), and
`RX_ACK`, which nothing reads (R18). -/

namespace Sys2Proof.Machine

/-- Settles O49: `RESET` by whether parameters are supplied. -/
theorem resetClearsEveryElement : Obligations.ResetClearsEveryElement := by
  intro s
  have hexec : exec .reset s = .next ((s.clearTx.resetDecoder).clearQueue).takeSupply := rfl
  refine ⟨rfl, fun p rest hSupplies => ?_, fun hSupplies => ?_⟩ <;>
    simp [hexec, State.takeSupply, State.clearQueue, State.resetDecoder, State.clearTx, hSupplies]

/-- Settles O50: every element by the definition of the state after reset, `State.reset` for `Config.resetParams`. -/
theorem resetStateHasTheResetValues : Obligations.ResetStateHasTheResetValues :=
  ⟨fun _ => ⟨rfl, rfl, rfl, rfl, rfl, rfl, rfl, rfl, rfl, rfl, rfl, rfl⟩, Config.resetParams, rfl⟩

/-! ### What every operation keeps -/

section Kept

variable {i : Instr} {s t : State}

/-- Only `RESET` takes parameters (R20). -/
theorem exec_params_supplies (h : exec i s = .next t) (hi : i ≠ .reset) :
    t.params = s.params ∧ t.supplies = s.supplies := by
  cases hc : i.channel with
  | tx => rw [exec_tx_frame h hc]; exact ⟨rfl, rfl⟩
  | rx => rw [exec_rx_frame h hc]; exact ⟨rfl, rfl⟩
  | q => rw [exec_q_frame h hc]; exact ⟨rfl, rfl⟩
  | all => exact absurd (eq_reset_of_channel_all hc) hi

/-- No operation presents a request or takes one back. -/
theorem exec_pending (h : exec i s = .next t) : t.pending = s.pending := by
  cases hc : i.channel with
  | tx => rw [exec_tx_frame h hc]
  | rx => rw [exec_rx_frame h hc]
  | q => rw [exec_q_frame h hc]
  | all =>
    cases eq_reset_of_channel_all hc
    cases h
    rfl

/-- What went out on the wire stays in the trace. -/
theorem exec_txw_extends (h : exec i s = .next t) : ∃ W, t.txw = s.txw ++ W := by
  cases hc : i.channel with
  | tx =>
    rcases exec_of_tx s hc with ⟨b, he⟩ | he <;> cases he.symm.trans h
    · exact ⟨esc b, rfl⟩
    · exact ⟨_, by rw [txEnd_eq]⟩
  | rx => exact ⟨[], by rw [exec_rx_frame h hc, List.append_nil]⟩
  | q => exact ⟨[], by rw [exec_q_frame h hc, List.append_nil]⟩
  | all =>
    cases eq_reset_of_channel_all hc
    cases h
    exact ⟨[], (List.append_nil _).symm⟩

/-- Events emitted stay in the trace. -/
theorem exec_evt_extends (h : exec i s = .next t) : ∃ E, t.evt = s.evt ++ E := by
  rcases exec_event_cases h with hsilent | ⟨p, rfl⟩ | ⟨c, rfl⟩
  · exact ⟨[], by rw [hsilent, List.append_nil]⟩
  · exact ⟨[.pktEvt], rfl⟩
  · exact ⟨[.rxDrop c], rfl⟩

theorem dequeue_results_extends (s : State) : ∃ R, (dequeue s).results = s.results ++ R := by
  obtain ⟨R, hResults, -⟩ := queueConserved_dequeue s
  exact ⟨R, hResults⟩

/-- Results returned stay in the list of results. -/
theorem exec_results_extends (h : exec i s = .next t) : ∃ R, t.results = s.results ++ R := by
  cases hc : i.channel with
  | tx => exact ⟨[], by rw [exec_tx_frame h hc, List.append_nil]⟩
  | rx => exact ⟨[], by rw [exec_rx_frame h hc, List.append_nil]⟩
  | q =>
    rcases exec_of_q s hc with he | he <;> cases he.symm.trans h
    · exact dequeue_results_extends s
    · exact ⟨_, rfl⟩
  | all =>
    cases eq_reset_of_channel_all hc
    cases h
    exact ⟨[], (List.append_nil _).symm⟩

end Kept

/-- Settles O52: component by component. -/
theorem parametersAndTracesAreKept : Obligations.ParametersAndTracesAreKept := fun _ _ _ h =>
  ⟨exec_params_supplies h, exec_pending h, exec_txw_extends h, exec_evt_extends h, exec_results_extends h⟩

/-! ### What `RXB` reads -/

/-- A relation between states that agree on all that `RXB` reads, kept by the operations `RXB` is made of. -/
structure RxSimulation (R : State → State → Prop) : Prop where
  agree : ∀ {s s'}, R s s' → s'.rxEsc = s.rxEsc ∧ s'.rxBuf = s.rxBuf ∧ s'.rxAcc = s.rxAcc ∧ s'.params = s.params
  setEsc : ∀ {s s'}, R s s' → ∀ v, R (s.setEsc v) (s'.setEsc v)
  setAck : ∀ {s s'}, R s s' → R s.setAck s'.setAck
  append : ∀ {s s'}, R s s' → ∀ b, R (s.append b) (s'.append b)
  accept : ∀ {s s'}, R s s' → ∀ p, R (s.accept p) (s'.accept p)
  discard : ∀ {s s'}, R s s' → ∀ c, R (s.discard c) (s'.discard c)

namespace RxSimulation

variable {R : State → State → Prop} (hR : RxSimulation R) {s s' : State} (h : R s s')

include hR h

theorem rxBoundary : R (rxBoundary s) (rxBoundary s') := by
  obtain ⟨-, hBuf, hAcc, hParams⟩ := hR.agree h
  have hShort : bufShort s' = bufShort s := by rw [bufShort, bufShort, hBuf]
  have hPass : ckPass s' = ckPass s := by
    rw [ckPass, ckPass, receivedCks, receivedCks, expectedCks, expectedCks, hBuf, hAcc]
  rw [Machine.rxBoundary, Machine.rxBoundary, hParams, hShort, hPass, rxMatch, rxMatch, rxNoCheck, rxNoCheck, hBuf]
  split_ifs
  · exact hR.discard h _
  · exact hR.accept h _
  · exact hR.discard h _
  · exact hR.accept h _

theorem rxEscaped (b : Byte) : R (rxEscaped b s) (rxEscaped b s') := by
  obtain ⟨-, -, -, hParams⟩ := hR.agree h
  rw [Machine.rxEscaped, Machine.rxEscaped, hParams]
  split_ifs
  · exact hR.append (hR.setEsc h false) _
  · exact hR.append (hR.setEsc h false) _
  · cases s.params.escEndPolicy with
    | flagOnly => exact hR.setAck (hR.setEsc h false)
    | discard => exact hR.discard h _
  · exact hR.discard h _

/-- `RXB` takes the same case in both states, so it keeps the relation. -/
theorem rxByte (b : Byte) : R (rxByte b s) (rxByte b s') := by
  obtain ⟨hEsc, -⟩ := hR.agree h
  rw [Machine.rxByte, Machine.rxByte, hEsc]
  split_ifs
  · exact hR.rxEscaped h b
  · exact hR.setEsc h true
  · exact hR.rxBoundary h
  · exact hR.append h b

end RxSimulation

/-! ### The encoder beside the other channels (R35) -/

/-- The state with another `TX_ACC` and another trace `TXW`: what the encoder may have written. -/
def State.withTx (a : Word32) (W : List Byte) (s : State) : State := { s with txAcc := a, txw := W }

/-- An effect that neither reads nor writes what the encoder writes, and keeps the parameters. -/
structure BesideEncoder (g : State → State) : Prop where
  withTx : ∀ a W s, g (s.withTx a W) = (g s).withTx a W
  txAcc : ∀ s, (g s).txAcc = s.txAcc
  txw : ∀ s, (g s).txw = s.txw
  params : ∀ s, (g s).params = s.params

theorem rxSimulation_withTx (a : Word32) (W : List Byte) : RxSimulation fun s s' => s' = s.withTx a W where
  agree := by rintro s _ rfl; exact ⟨rfl, rfl, rfl, rfl⟩
  setEsc := by rintro s _ rfl v; rfl
  setAck := by rintro s _ rfl; rfl
  append := by rintro s _ rfl b; rfl
  accept := by rintro s _ rfl p; rfl
  discard := by rintro s _ rfl c; rfl

theorem besideEncoder_rxByte (b : Byte) : BesideEncoder (rxByte b) where
  withTx a W s := (rxSimulation_withTx a W).rxByte rfl b
  txAcc s := by rw [rxByte_frame b s]
  txw s := by rw [rxByte_frame b s]
  params := rxByte_params b

theorem besideEncoder_dequeue : BesideEncoder dequeue where
  withTx a W s := by
    cases hPq : s.pq with
    | nil => rw [dequeue_nil hPq, dequeue_nil (s := s.withTx a W) hPq]; rfl
    | cons p rest => rw [dequeue_cons hPq, dequeue_cons (s := s.withTx a W) hPq]; rfl
  txAcc s := by rw [dequeue_frame s]
  txw s := by rw [dequeue_frame s]
  params s := by rw [dequeue_frame s]

theorem besideEncoder_count : BesideEncoder fun s => s.report (.count s.pq.length) where
  withTx _ _ _ := rfl
  txAcc _ := rfl
  txw _ := rfl
  params _ := rfl

/-- An operation of the RX or Q channel is one effect, the same in every state, beside the encoder. -/
theorem exists_besideEncoder {y : Instr} (hy : y.channel = .rx ∨ y.channel = .q) :
    ∃ g, BesideEncoder g ∧ ∀ s, exec y s = .next (g s) := by
  rcases exec_shape y with ⟨b, hc, -⟩ | ⟨hc, -⟩ | ⟨b, -, -, -, h⟩ | ⟨-, -, -, h⟩ | ⟨-, h⟩ | ⟨rfl, -⟩
  · simp [hc] at hy
  · simp [hc] at hy
  · exact ⟨_, besideEncoder_rxByte b, h⟩
  · exact ⟨_, besideEncoder_dequeue, h⟩
  · exact ⟨_, besideEncoder_count, h⟩
  · simp [Instr.channel] at hy

section Commute

variable {g : State → State} (hg : BesideEncoder g)

include hg

theorem BesideEncoder.txByte_comm (b : Byte) (s : State) : g (txByte b s) = txByte b (g s) :=
  calc g (txByte b s) = (g s).withTx (add32 s.txAcc (contrib b)) (s.txw ++ esc b) := hg.withTx _ _ s
    _ = txByte b (g s) := by rw [txByte_eq, hg.txAcc, hg.txw, State.withTx]

theorem BesideEncoder.txEnd_comm (s : State) : g (txEnd s) = txEnd (g s) :=
  calc g (txEnd s) = (g s).withTx 0 (s.txw ++ ((if s.params.cken then le32 s.txAcc else []) ++ [END])) := by
        rw [txEnd_eq]
        exact hg.withTx _ _ s
    _ = txEnd (g s) := by simp only [txEnd_eq, State.withTx, hg.txAcc, hg.txw, hg.params]

/-- An encoder operation and such an effect may change places. -/
theorem BesideEncoder.exec_tx_comm {x : Instr} (hx : x.channel = .tx) {s u : State} (h : exec x s = .next u) :
    exec x (g s) = .next (g u) := by
  rcases exec_shape x with ⟨b, -, -, -, he⟩ | ⟨-, -, -, he⟩ | ⟨b, hc, -⟩ | ⟨hc, -⟩ | ⟨rfl, -⟩ | ⟨rfl, -⟩
  · cases (he s).symm.trans h
    rw [he, hg.txByte_comm]
  · cases (he s).symm.trans h
    rw [he, hg.txEnd_comm]
  · simp [hc] at hx
  · simp [hc] at hx
  · simp [Instr.channel] at hx
  · simp [Instr.channel] at hx

/-- So may a whole sequence of encoder operations. -/
theorem BesideEncoder.run_tx_comm {xs : List Instr} (hxs : ∀ x ∈ xs, x.channel = .tx) {s u : State}
    (h : run xs s = .next u) : run xs (g s) = .next (g u) := by
  induction xs generalizing s with
  | nil =>
    cases h
    rfl
  | cons x xs ih =>
    obtain ⟨hx, hRest⟩ := List.forall_mem_cons.mp hxs
    obtain ⟨v, hv⟩ := everyOperationAnswersANextState x s
    rw [run_cons hv] at h
    rw [run_cons (hg.exec_tx_comm hx hv)]
    exact ih hRest h

end Commute

/-- Every run is total: no operation faults or is refused. -/
theorem run_total (is : List Instr) (s : State) : ∃ t, run is s = .next t := by
  induction is generalizing s with
  | nil => exact ⟨s, rfl⟩
  | cons i is ih =>
    obtain ⟨u, hu⟩ := everyOperationAnswersANextState i s
    rw [run_cons hu]
    exact ih u

/-- An operation of the RX or Q channel may run before the encoder's instead of after them. -/
theorem run_tx_append_cons {xs : List Instr} (hxs : ∀ x ∈ xs, x.channel = .tx) {y : Instr}
    (hy : y.channel = .rx ∨ y.channel = .q) (ys : List Instr) (s : State) :
    run (xs ++ y :: ys) s = run (y :: (xs ++ ys)) s := by
  obtain ⟨g, hg, hexec⟩ := exists_besideEncoder hy
  obtain ⟨u, hu⟩ := run_total xs s
  rw [run_append hu, run_cons (hexec u), run_cons (hexec s), run_append (hg.run_tx_comm hxs hu)]

/-- An interleaving runs as the encoder's operations first, then the others: each of the others moves past what is left
of the encoder's. -/
theorem run_interleaving {xs ys zs : List Instr} (hxs : ∀ x ∈ xs, x.channel = .tx)
    (hys : ∀ y ∈ ys, y.channel = .rx ∨ y.channel = .q) (h : Interleaving xs ys zs) (s : State) :
    run zs s = run (xs ++ ys) s := by
  induction h generalizing s with
  | nil => rfl
  | @left x xs ys zs _ ih =>
    obtain ⟨-, hRest⟩ := List.forall_mem_cons.mp hxs
    obtain ⟨u, hu⟩ := everyOperationAnswersANextState x s
    rw [List.cons_append, run_cons hu, run_cons hu, ih hRest hys]
  | @right y xs ys zs _ ih =>
    obtain ⟨hy, hRest⟩ := List.forall_mem_cons.mp hys
    obtain ⟨u, hu⟩ := everyOperationAnswersANextState y s
    rw [run_tx_append_cons hxs hy, run_cons hu, run_cons hu, ih hxs hRest]

/-- Settles O53: both runs are one run, which is total. -/
theorem everyInterleavingOfTheEncoderGivesOneResult : Obligations.EveryInterleavingOfTheEncoderGivesOneResult := by
  intro xs ys zs s hxs hys hInterleaving
  obtain ⟨t, ht⟩ := run_total (xs ++ ys) s
  exact ⟨t, (run_interleaving hxs hys hInterleaving s).trans ht, ht⟩

/-! ### `RX_ACK` is never read (R18) -/

/-- The state with another value of `RX_ACK`. -/
def State.withAck (a : Bool) (s : State) : State := { s with rxAck := a }

/-- Two states that differ in `RX_ACK` at most. -/
def SameButAck (s s' : State) : Prop := ∃ a, s' = s.withAck a

theorem rxSimulation_sameButAck : RxSimulation SameButAck where
  agree := by rintro s _ ⟨a, rfl⟩; exact ⟨rfl, rfl, rfl, rfl⟩
  setEsc := by rintro s _ ⟨a, rfl⟩ v; exact ⟨a, rfl⟩
  setAck := by rintro s _ ⟨a, rfl⟩; exact ⟨true, rfl⟩
  append := by rintro s _ ⟨a, rfl⟩ b; exact ⟨a, rfl⟩
  accept := by rintro s _ ⟨a, rfl⟩ p; exact ⟨false, rfl⟩
  discard := by rintro s _ ⟨a, rfl⟩ c; exact ⟨false, rfl⟩

theorem SameButAck.txEnd {s s' : State} (h : SameButAck s s') : SameButAck (txEnd s) (txEnd s') := by
  obtain ⟨a, rfl⟩ := h
  exact ⟨a, by rw [txEnd_eq, txEnd_eq]; rfl⟩

theorem SameButAck.dequeue {s s' : State} (h : SameButAck s s') : SameButAck (dequeue s) (dequeue s') := by
  obtain ⟨a, rfl⟩ := h
  refine ⟨a, ?_⟩
  cases hPq : s.pq with
  | nil => rw [dequeue_nil hPq, dequeue_nil (s := s.withAck a) hPq]; rfl
  | cons p rest => rw [dequeue_cons hPq, dequeue_cons (s := s.withAck a) hPq]; rfl

/-- Each of the six effects keeps two such states such. -/
theorem SameButAck.exec {i : Instr} {s s' t : State} (h : SameButAck s s') (he : exec i s = .next t) :
    ∃ t', exec i s' = .next t' ∧ SameButAck t t' := by
  rcases exec_shape i with ⟨b, -, -, -, hi⟩ | ⟨-, -, -, hi⟩ | ⟨b, -, -, -, hi⟩ | ⟨-, -, -, hi⟩ | ⟨-, hi⟩ | ⟨-, hi⟩ <;>
    cases (hi s).symm.trans he <;> refine ⟨_, hi s', ?_⟩
  · obtain ⟨a, rfl⟩ := h
    exact ⟨a, rfl⟩
  · exact h.txEnd
  · exact rxSimulation_sameButAck.rxByte h b
  · exact h.dequeue
  · obtain ⟨a, rfl⟩ := h
    exact ⟨a, rfl⟩
  · obtain ⟨a, rfl⟩ := h
    exact ⟨false, rfl⟩

theorem SameButAck.run {is : List Instr} {s s' t : State} (h : SameButAck s s') (hrun : run is s = .next t) :
    ∃ t', run is s' = .next t' ∧ SameButAck t t' := by
  induction is generalizing s s' with
  | nil =>
    cases hrun
    exact ⟨s', rfl, h⟩
  | cons i is ih =>
    obtain ⟨u, hu⟩ := everyOperationAnswersANextState i s
    obtain ⟨u', hu', hsame⟩ := h.exec hu
    rw [run_cons hu] at hrun
    rw [run_cons hu']
    exact ih hsame hrun

/-- Settles O54: the relation holds at the start, so it holds at the end. -/
theorem pendingAcknowledgmentIsNeverRead : Obligations.PendingAcknowledgmentIsNeverRead := by
  intro is s t a h
  obtain ⟨_, hrun, a', rfl⟩ := SameButAck.run (s' := s.withAck a) ⟨a, rfl⟩ h
  exact ⟨a', hrun⟩

end Sys2Proof.Machine
end
